-- ==== Sys2Proof/Word.lean ====
section
/-! DEFINITION. The word types of mbcodec (00_scope R12, R13). -/

namespace Sys2Proof

/-- A byte, `u8` (R13): unit ids, function codes, exception codes and every byte of a frame. -/
abbrev Byte := BitVec 8

/-- `u16` (R13): addresses, quantities, register values, MBAP fields and the CRC register. -/
abbrev Word16 := BitVec 16

/-- `u32` (R13), TIME_W bits (R11): the timeouts, the retry counts and the timers. -/
abbrev Word32 := BitVec 32

/-- A TCP transaction id (R12): 16 bits. -/
abbrev Tid := BitVec 16

end Sys2Proof
end

