-- ==== Sys2Proof/Config.lean ====
section
/-! DEFINITION. The implementation parameters of 00_scope R11, and the one value the spec leaves undefined. -/

namespace Sys2Proof

/-- KIND (R11, R31): 0 = RTU, 1 = TCP. -/
inductive Kind where
  /-- Modbus RTU, CRC-16 framed. -/
  | rtu
  /-- Modbus TCP, MBAP framed. -/
  | tcp
  deriving DecidableEq, Repr

/-- RXBUF_CAP: capacity of the reassembly buffer in bytes (R11, D7). -/
abbrev Config.rxbufCap : Nat := 260

/-- MAX_MBAP_LEN: largest MBAP length field the receive framer accepts (R11, D8). -/
abbrev Config.maxMbapLen : Nat := 254

/-- MAX_REG_QTY: largest register quantity of 0x03 and 0x10 (R11). -/
abbrev Config.maxRegQty : Nat := 125

/-- MAX_COIL_QTY: largest coil quantity of 0x01 and 0x0F (R11). -/
abbrev Config.maxCoilQty : Nat := 2000

/-- The largest N_TCP_CTX an instance may have (R11, D6). -/
abbrev Config.maxTcpCtx : Nat := 65535

/-- The default that R11 gives the OPEN parameter HANDLE_W (D13). -/
abbrev Config.defaultHandleW : Nat := 16

/-- The host's tag of one execute (R40, R102), as the number its HANDLE_W bits stand for: less than 2^HANDLE_W in every
word of a port of that width (notes/assumptions/2.md). The block only compares handles for equality. -/
abbrev Handle := Nat

/-- The parameters that distinguish one instance of the block from another (R10, R11). -/
structure Params where
  /-- KIND. -/
  kind : Kind
  /-- N_TCP_CTX, used when KIND = TCP. -/
  nTcpCtx : Nat
  /-- HANDLE_W. -/
  handleW : Nat
  deriving DecidableEq, Repr

/-- N_CTX (R11): 1 when KIND = RTU, N_TCP_CTX when KIND = TCP. -/
def Params.nCtx (p : Params) : Nat :=
  match p.kind with
  | .rtu => 1
  | .tcp => p.nTcpCtx

/-- The range R11 gives the OPEN parameter: 1 <= N_TCP_CTX <= 65535. -/
abbrev Params.inRange (p : Params) : Prop :=
  1 ≤ p.nTcpCtx ∧ p.nTcpCtx ≤ Config.maxTcpCtx

/-- The instance that `State.reset` is the reset state of. DESIGN CHOICE (notes/assumptions/1.md, unsafe for a claim
about `State.reset` alone): a TCP block with four contexts and handles of the default width. Every other instance is
`State.resetOf` at its own parameters, and the step serves every instance. -/
def Config.instanceParams : Params := ⟨.tcp, 4, Config.defaultHandleW⟩

/-- The bytes `encode` gives for a request that validation refuses: "its value on any other request is not defined and
no rule asks for it" (R150). A FREE VALUE: nothing constrains it (notes/assumptions/11.md, DESIGN CHOICE, safe). -/
opaque Config.undefinedFrame (kind : Kind) (tid : Tid) (unit fc : Byte) (addr qty : Word16)
    (regs : List Word16) (coils : List Bool) : List Byte

end Sys2Proof
end

