-- ==== Sys2Proof/Syntax.lean ====
section
/-! DEFINITION. The instructions of mbcodec: one constructor per row of spec/opcode_table.json. The table's rows stand in
four code spaces: request PDUs, response PDUs, input events and CRC generator operations. -/

namespace Sys2Proof

/-- The request of one execute (R41, R102). A register value is 16 bits and a coil one bit by its type, so that a
non-conforming value cannot be carried (R143). -/
structure Req where
  /-- Function code. -/
  fc : Byte
  /-- Unit id (R21). -/
  unit : Byte
  /-- Starting address in the remote device (R71). -/
  addr : Word16
  /-- Quantity. -/
  qty : Word16
  /-- Register values to write. -/
  regs : List Word16
  /-- Coil values to write. -/
  coils : List Bool
  deriving DecidableEq, Repr

/-- The configuration of one execute (R42, R102). -/
structure ExecCfg where
  /-- timeout_ms: the response deadline in TICKs. -/
  timeoutMs : Word32
  /-- max_retries: retries allowed after the first attempt. -/
  maxRetries : Word32
  /-- retry_backoff_ms: TICKs before each retry. -/
  retryBackoffMs : Word32
  deriving DecidableEq, Repr

/-- The instruction set. A request row carries the operands of `encode(req, kind, tid)` for its function code (R150); a
response row carries the bytes of the PDU after its function code, well formed or not (R175); an event row carries its
event's payload (R100 to R103); a CRC row its operand (R131 to R133). -/
inductive Instr where
  /-- REQ_READ_COILS (R152). -/
  | reqReadCoils (tid : Tid) (unit : Byte) (addr qty : Word16)
  /-- REQ_READ_HOLDING_REGISTERS (R153). -/
  | reqReadHoldingRegisters (tid : Tid) (unit : Byte) (addr qty : Word16)
  /-- REQ_WRITE_SINGLE_REGISTER (R154). -/
  | reqWriteSingleRegister (tid : Tid) (unit : Byte) (addr value : Word16)
  /-- REQ_WRITE_MULTIPLE_COILS (R155). -/
  | reqWriteMultipleCoils (tid : Tid) (unit : Byte) (addr qty : Word16) (coils : List Bool)
  /-- REQ_WRITE_MULTIPLE_REGISTERS (R156). -/
  | reqWriteMultipleRegisters (tid : Tid) (unit : Byte) (addr qty : Word16) (regs : List Word16)
  /-- RSP_READ_COILS (R177). -/
  | rspReadCoils (payload : List Byte)
  /-- RSP_READ_HOLDING_REGISTERS (R178). -/
  | rspReadHoldingRegisters (payload : List Byte)
  /-- RSP_WRITE_SINGLE_REGISTER (R179). -/
  | rspWriteSingleRegister (payload : List Byte)
  /-- RSP_WRITE_MULTIPLE_COILS (R180). -/
  | rspWriteMultipleCoils (payload : List Byte)
  /-- RSP_WRITE_MULTIPLE_REGISTERS (R181). -/
  | rspWriteMultipleRegisters (payload : List Byte)
  /-- RSP_EXCEPTION_81 (R176, R111). -/
  | rspException81 (payload : List Byte)
  /-- RSP_EXCEPTION_83 (R176, R111). -/
  | rspException83 (payload : List Byte)
  /-- RSP_EXCEPTION_86 (R176, R111). -/
  | rspException86 (payload : List Byte)
  /-- RSP_EXCEPTION_8F (R176, R111). -/
  | rspException8F (payload : List Byte)
  /-- RSP_EXCEPTION_90 (R176, R111). -/
  | rspException90 (payload : List Byte)
  /-- RSP_EXCEPTION, any base function code (R176): `fc` has bit 7 set and is none of the five above. -/
  | rspException (fc : Byte) (payload : List Byte)
  /-- RSP_UNRECOGNISED (R175, R118): `fc` has bit 7 clear and is none of the five function codes. -/
  | rspUnrecognised (fc : Byte) (payload : List Byte)
  /-- EV_EXECUTE (R250). -/
  | evExecute (handle : Handle) (req : Req) (cfg : ExecCfg)
  /-- EV_CANCEL (R266). -/
  | evCancel (handle : Handle)
  /-- EV_RX_BYTE (R205). -/
  | evRxByte (b : Byte)
  /-- EV_RX_IDLE (R214). -/
  | evRxIdle
  /-- EV_TICK (R270). -/
  | evTick
  /-- EV_LINK_UP (R275). -/
  | evLinkUp
  /-- EV_LINK_DOWN (R276). -/
  | evLinkDown
  /-- CRC_INIT (R131). -/
  | crcInit
  /-- CRC_UPDATE (R132). -/
  | crcUpdate (b : Byte)
  /-- CRC_READ (R133). -/
  | crcRead
  deriving DecidableEq, Repr

/-- The four code spaces of the opcode table. The spaces share numbers: byte 0x01 is a request, a response, an event and
a CRC operation, so a word means an instruction only in its space (notes/assumptions/8.md, DESIGN CHOICE). -/
inductive Space where
  /-- Input events, 4-bit type codes (R100). -/
  | event
  /-- Request PDUs (R95 to R99). -/
  | request
  /-- Response PDUs (R95 to R99, R111). -/
  | response
  /-- CRC generator operations, 2-bit codes (R130). -/
  | crcOp
  deriving DecidableEq, Repr

/-- One word at the block's port: the space it stands in and its bytes, the first byte first (R15). -/
structure PortWord where
  /-- The code space. -/
  space : Space
  /-- The bytes in wire order. -/
  bytes : List Byte
  deriving DecidableEq, Repr

end Sys2Proof
end

