-- ==== Sys2Proof/Machine/Operands.lean ====
section
/-! DEFINITION. Operand forms: byte order, coil and register packing (00_scope R15; 20_memory R72 to R76;
41_encode R160, R161). -/

namespace Sys2Proof.Machine

/-- `BE16(v)` (R15): most significant byte first. -/
def be16 (v : Word16) : List Byte := [v.extractLsb' 8 8, v.extractLsb' 0 8]

/-- `LE16(v)` (R15): least significant byte first; the RTU CRC's order (R73). -/
def le16 (v : Word16) : List Byte := [v.extractLsb' 0 8, v.extractLsb' 8 8]

/-- A 32-bit field, most significant byte first; used only in the port words of EXECUTE (notes/assumptions/7.md). -/
def be32 (v : Word32) : List Byte :=
  [v.extractLsb' 24 8, v.extractLsb' 16 8, v.extractLsb' 8 8, v.extractLsb' 0 8]

/-- `s[i]` (R15). Every use reads an index below the length; past the end it is 0. -/
def byteAt (s : List Byte) (i : Nat) : Byte := s.getD i 0

/-- `rdBE16(s, i) = s[i] * 256 + s[i+1]` (R15, R114). -/
def rdBE16 (s : List Byte) (i : Nat) : Word16 := byteAt s i ++ byteAt s (i + 1)

/-- `s[i] + 256 * s[i+1]`: the little-endian read of the RTU CRC (R73, R134). -/
def rdLE16 (s : List Byte) (i : Nat) : Word16 := byteAt s (i + 1) ++ byteAt s i

/-- A 32-bit field read most significant byte first (port words of EXECUTE only). -/
def rdBE32 (s : List Byte) (i : Nat) : Word32 := rdBE16 s i ++ rdBE16 s (i + 2)

/-- The low 8n bits of v in n bytes, most significant byte first; used only for the handle of a port word
(notes/assumptions/7.md). -/
def beBytes : Nat → Nat → List Byte
  | 0, _ => []
  | n + 1, v => BitVec.ofNat 8 (v >>> (8 * n)) :: beBytes n v

/-- The number that bytes stand for, most significant byte first (port words only). -/
def beNat (s : List Byte) : Nat := s.foldl (fun v b => 256 * v + b.toNat) 0

/-- The bytes that hold a handle of hw bits in a port word: `ceil(hw / 8)`. -/
def handleBytes (hw : Nat) : Nat := (hw + 7) / 8

/-- The handle field of a port word, at byte i: hw bits in whole bytes, the bits above them not read. -/
def handleAt (hw : Nat) (s : List Byte) (i : Nat) : Handle :=
  beNat ((s.drop i).take (handleBytes hw)) % 2 ^ hw

/-- `s[i..j)` (R15). -/
def sliceBytes (s : List Byte) (i j : Nat) : List Byte := (s.drop i).take (j - i)

/-- `ceil(n / 8)` (R13): the bytes that n coils take (R115). -/
def coilByteCount (n : Nat) : Nat := (n + 7) / 8

/-- Byte j of packed coils (R160): the sum of `c[8j + k] * 2^k` over k in 0 .. 7, a missing coil counting 0. -/
def coilByte (c : List Bool) (j : Nat) : Byte :=
  BitVec.ofNat 8
    ((c.getD (8 * j) false).toNat + 2 * (c.getD (8 * j + 1) false).toNat + 4 * (c.getD (8 * j + 2) false).toNat +
      8 * (c.getD (8 * j + 3) false).toNat + 16 * (c.getD (8 * j + 4) false).toNat +
      32 * (c.getD (8 * j + 5) false).toNat + 64 * (c.getD (8 * j + 6) false).toNat +
      128 * (c.getD (8 * j + 7) false).toNat)

/-- `pack_coils(c)` (R160, R75): eight coils a byte, least significant bit first, padding 0. -/
def packCoils (c : List Bool) : List Byte :=
  (List.range (coilByteCount c.length)).map (coilByte c)

/-- The first n coils of packed bytes (R185, R163): coil k is bit `k mod 8` of byte `k div 8`. -/
def unpackCoils (n : Nat) (d : List Byte) : List Bool :=
  (List.range n).map fun k => (byteAt d (k / 8)).getLsbD (k % 8)

/-- `pack_regs(r)` (R161, R74): each register big-endian, in address order. -/
def packRegs (r : List Word16) : List Byte := r.flatMap be16

/-- The first n registers of packed bytes (R178, R163). -/
def unpackRegs (n : Nat) (d : List Byte) : List Word16 :=
  (List.range n).map fun k => rdBE16 d (2 * k)

end Sys2Proof.Machine
end

