-- ==== Sys2Proof/WellFormed.lean ====
section
/-! DEFINITION. Which instructions are well formed: the operand ranges of the opcode table's rows (41_encode R141, R142;
30_encoding R102, R113). The width of a handle is the instance's HANDLE_W (00_scope R11). -/

namespace Sys2Proof

/-- The quantity and address rule of the multi-item requests (R141): `1 <= qty <= max` and `addr + qty <= 65536`. -/
def rangeOk (max : Nat) (addr qty : Word16) : Bool :=
  decide (1 ≤ qty.toNat) && decide (qty.toNat ≤ max) && decide (addr.toNat + qty.toNat ≤ 65536)

/-- The function codes in scope (R2, R145). -/
def fcInScope (fc : Byte) : Bool :=
  fc == 0x01 || fc == 0x03 || fc == 0x06 || fc == 0x0F || fc == 0x10

/-- The exception function codes of the five requests (R111). -/
def excFcInScope (fc : Byte) : Bool :=
  fc == 0x81 || fc == 0x83 || fc == 0x86 || fc == 0x8F || fc == 0x90

/-- The lists an EXECUTE port can carry (R102): at most MAX_REG_QTY registers and MAX_COIL_QTY coils. -/
def Req.portable (r : Req) : Bool :=
  decide (r.regs.length ≤ Config.maxRegQty) && decide (r.coils.length ≤ Config.maxCoilQty)

/-- Is a handle one that hw bits hold (R11, R40, R102)? -/
def handleOk (hw : Nat) (h : Handle) : Bool := decide (h < 2 ^ hw)

/-- Well-formedness of an instruction for an instance with HANDLE_W = hw. -/
def Instr.WellFormed (hw : Nat) : Instr → Bool
  | .reqReadCoils _ _ addr qty => rangeOk Config.maxCoilQty addr qty
  | .reqReadHoldingRegisters _ _ addr qty => rangeOk Config.maxRegQty addr qty
  | .reqWriteSingleRegister _ _ _ _ => true
  | .reqWriteMultipleCoils _ _ addr qty coils =>
    rangeOk Config.maxCoilQty addr qty && coils.length == qty.toNat
  | .reqWriteMultipleRegisters _ _ addr qty regs =>
    rangeOk Config.maxRegQty addr qty && regs.length == qty.toNat
  | .rspReadCoils _ => true
  | .rspReadHoldingRegisters _ => true
  | .rspWriteSingleRegister _ => true
  | .rspWriteMultipleCoils _ => true
  | .rspWriteMultipleRegisters _ => true
  | .rspException81 _ => true
  | .rspException83 _ => true
  | .rspException86 _ => true
  | .rspException8F _ => true
  | .rspException90 _ => true
  | .rspException fc _ => fc.getLsbD 7 && !excFcInScope fc
  | .rspUnrecognised fc _ => !fc.getLsbD 7 && !fcInScope fc
  | .evExecute h req _ => handleOk hw h && req.portable
  | .evCancel h => handleOk hw h
  | .evRxByte _ => true
  | .evRxIdle => true
  | .evTick => true
  | .evLinkUp => true
  | .evLinkDown => true
  | .crcInit => true
  | .crcUpdate _ => true
  | .crcRead => true

end Sys2Proof
end

