-- ==== Sys2Proof/Decode.lean ====
section
/-! DEFINITION. The decoder and the encoder of port words. The first byte of a word is the code of the opcode table (a
function code, an event type, a CRC operation code); the bytes after it carry the row's fields. The field order inside a
PDU is the spec's (30_encoding R95 to R99, R111); the order of an event's payload and of a request's envelope operands is
the model's (notes/assumptions/7.md, DESIGN CHOICE). -/

namespace Sys2Proof

open Sys2Proof.Machine

/-- Why a port word carries no instruction. -/
inductive DecodeError where
  /-- The word has no byte. -/
  | emptyWord
  /-- The word ends before its last field. -/
  | truncatedWord
  /-- An event type 0x0 or 0x8 .. 0xF (R100, R119), or a type byte that is no 4-bit code. -/
  | reservedEventType (code : Byte)
  /-- A request function code outside the five (R117, R145). -/
  | requestCodeNotInScope (fc : Byte)
  /-- CRC operation code 0b11 (R130), or an operation byte that is no 2-bit code. -/
  | reservedCrcOp (code : Byte)
  /-- A request byte count other than `ceil(qty/8)` or `2 * qty` (R98, R99). -/
  | byteCountMismatch (count : Byte)
  deriving DecidableEq, Repr

/-- `k` when the word has at least n bytes, else `truncatedWord`. -/
def needBytes (n : Nat) (s : List Byte) (k : Except DecodeError Instr) : Except DecodeError Instr :=
  if n ≤ s.length then k else .error .truncatedWord

/-- The request fields of an EXECUTE word (R102): function code, unit, address, quantity and the two lists, whose lengths
are in bytes 19 .. 22. -/
def execReqOf (s : List Byte) : Req where
  fc := byteAt s 1
  unit := byteAt s 2
  addr := rdBE16 s 3
  qty := rdBE16 s 5
  regs := unpackRegs (rdBE16 s 19).toNat (s.drop 23)
  coils := unpackCoils (rdBE16 s 21).toNat (s.drop (23 + 2 * (rdBE16 s 19).toNat))

/-- The configuration fields of an EXECUTE word (R102). -/
def execCfgOf (s : List Byte) : ExecCfg where
  timeoutMs := rdBE32 s 7
  maxRetries := rdBE32 s 11
  retryBackoffMs := rdBE32 s 15

/-- Where the handle of an EXECUTE word stands: after the two lists. -/
def execHandleIdx (s : List Byte) : Nat := 23 + 2 * (rdBE16 s 19).toNat + coilByteCount (rdBE16 s 21).toNat

/-- An EXECUTE word: type, fc, unit, addr, qty, the three configuration fields, the list lengths, the lists, and the
handle of hw bits last, so that no other field's place depends on HANDLE_W. -/
def decodeExecute (hw : Nat) (s : List Byte) : Except DecodeError Instr :=
  needBytes 23 s <|
    needBytes (execHandleIdx s + handleBytes hw) s <|
      .ok (.evExecute (handleAt hw s (execHandleIdx s)) (execReqOf s) (execCfgOf s))

/-- Event words (R100) at a port with handles of hw bits: the type code is the first byte, its high four bits 0. -/
def decodeEvent (hw : Nat) (s : List Byte) : Except DecodeError Instr :=
  match s with
  | [] => .error .emptyWord
  | code :: _ =>
    if code = 0x01 then decodeExecute hw s
    else if code = 0x02 then needBytes (1 + handleBytes hw) s (.ok (.evCancel (handleAt hw s 1)))
    else if code = 0x03 then needBytes 2 s (.ok (.evRxByte (byteAt s 1)))
    else if code = 0x04 then .ok .evRxIdle
    else if code = 0x05 then .ok .evTick
    else if code = 0x06 then .ok .evLinkUp
    else if code = 0x07 then .ok .evLinkDown
    else .error (.reservedEventType code)

/-- The unit id of a request word, at byte i, after its PDU. -/
def unitAt (s : List Byte) (i : Nat) : Byte := byteAt s i

/-- The transaction id of a request word, at byte i + 1, after its unit id. -/
def tidAt (s : List Byte) (i : Nat) : Tid := rdBE16 s (i + 1)

/-- A WRITE_MULTIPLE_COILS request word (R98, R163): byte 5 must be `ceil(qty/8)`; the padding bits are not read. -/
def decodeReqCoils (s : List Byte) : Except DecodeError Instr :=
  needBytes 6 s <|
    if (byteAt s 5).toNat = coilByteCount (rdBE16 s 3).toNat then
      needBytes (9 + (byteAt s 5).toNat) s <|
        .ok (.reqWriteMultipleCoils (tidAt s (6 + (byteAt s 5).toNat)) (unitAt s (6 + (byteAt s 5).toNat))
          (rdBE16 s 1) (rdBE16 s 3) (unpackCoils (rdBE16 s 3).toNat (s.drop 6)))
    else .error (.byteCountMismatch (byteAt s 5))

/-- A WRITE_MULTIPLE_REGISTERS request word (R99, R163): byte 5 must be `2 * qty`. -/
def decodeReqRegs (s : List Byte) : Except DecodeError Instr :=
  needBytes 6 s <|
    if (byteAt s 5).toNat = 2 * (rdBE16 s 3).toNat then
      needBytes (9 + (byteAt s 5).toNat) s <|
        .ok (.reqWriteMultipleRegisters (tidAt s (6 + (byteAt s 5).toNat)) (unitAt s (6 + (byteAt s 5).toNat))
          (rdBE16 s 1) (rdBE16 s 3) (unpackRegs (rdBE16 s 3).toNat (s.drop 6)))
    else .error (.byteCountMismatch (byteAt s 5))

/-- Request words: the request PDU (R95 to R99), then the envelope's unit id and transaction id. -/
def decodeRequest (s : List Byte) : Except DecodeError Instr :=
  match s with
  | [] => .error .emptyWord
  | code :: _ =>
    if code = 0x01 then needBytes 8 s (.ok (.reqReadCoils (tidAt s 5) (unitAt s 5) (rdBE16 s 1) (rdBE16 s 3)))
    else if code = 0x03 then
      needBytes 8 s (.ok (.reqReadHoldingRegisters (tidAt s 5) (unitAt s 5) (rdBE16 s 1) (rdBE16 s 3)))
    else if code = 0x06 then
      needBytes 8 s (.ok (.reqWriteSingleRegister (tidAt s 5) (unitAt s 5) (rdBE16 s 1) (rdBE16 s 3)))
    else if code = 0x0F then decodeReqCoils s
    else if code = 0x10 then decodeReqRegs s
    else .error (.requestCodeNotInScope code)

/-- Response words: the whole response PDU (R94). Every non-empty PDU is one instruction (R175). -/
def decodeResponse (s : List Byte) : Except DecodeError Instr :=
  match s with
  | [] => .error .emptyWord
  | code :: payload =>
    if code = 0x01 then .ok (.rspReadCoils payload)
    else if code = 0x03 then .ok (.rspReadHoldingRegisters payload)
    else if code = 0x06 then .ok (.rspWriteSingleRegister payload)
    else if code = 0x0F then .ok (.rspWriteMultipleCoils payload)
    else if code = 0x10 then .ok (.rspWriteMultipleRegisters payload)
    else if code = 0x81 then .ok (.rspException81 payload)
    else if code = 0x83 then .ok (.rspException83 payload)
    else if code = 0x86 then .ok (.rspException86 payload)
    else if code = 0x8F then .ok (.rspException8F payload)
    else if code = 0x90 then .ok (.rspException90 payload)
    else if code.getLsbD 7 then .ok (.rspException code payload)
    else .ok (.rspUnrecognised code payload)

/-- CRC operation words (R130): the operation code is the first byte, its high six bits 0. -/
def decodeCrcOp (s : List Byte) : Except DecodeError Instr :=
  match s with
  | [] => .error .emptyWord
  | code :: _ =>
    if code = 0x00 then .ok .crcInit
    else if code = 0x01 then needBytes 2 s (.ok (.crcUpdate (byteAt s 1)))
    else if code = 0x02 then .ok .crcRead
    else .error (.reservedCrcOp code)

/-- The decoder at the ports of an instance with HANDLE_W = hw: total on every port word. Bytes of an event, request or
CRC word past its last field are not read. -/
def decode (hw : Nat) (w : PortWord) : Except DecodeError Instr :=
  match w.space with
  | .event => decodeEvent hw w.bytes
  | .request => decodeRequest w.bytes
  | .response => decodeResponse w.bytes
  | .crcOp => decodeCrcOp w.bytes

/-- The envelope operands of a request word: unit id, then transaction id. -/
def envelopeBytes (unit : Byte) (tid : Tid) : List Byte := unit :: be16 tid

/-- The bytes of an EXECUTE word. -/
def executeBytes (hw : Nat) (h : Handle) (r : Req) (c : ExecCfg) : List Byte :=
  [0x01, r.fc, r.unit] ++ be16 r.addr ++ be16 r.qty ++ be32 c.timeoutMs ++ be32 c.maxRetries ++
    be32 c.retryBackoffMs ++ be16 (BitVec.ofNat 16 r.regs.length) ++ be16 (BitVec.ofNat 16 r.coils.length) ++
    packRegs r.regs ++ packCoils r.coils ++ beBytes (handleBytes hw) h

/-- The encoder: the port word of an instruction, for an instance with HANDLE_W = hw. -/
def encode (hw : Nat) : Instr → PortWord
  | .reqReadCoils t u a q => ⟨.request, [0x01] ++ be16 a ++ be16 q ++ envelopeBytes u t⟩
  | .reqReadHoldingRegisters t u a q => ⟨.request, [0x03] ++ be16 a ++ be16 q ++ envelopeBytes u t⟩
  | .reqWriteSingleRegister t u a v => ⟨.request, [0x06] ++ be16 a ++ be16 v ++ envelopeBytes u t⟩
  | .reqWriteMultipleCoils t u a q cs =>
    ⟨.request, [0x0F] ++ be16 a ++ be16 q ++ [BitVec.ofNat 8 (packCoils cs).length] ++ packCoils cs ++ envelopeBytes u t⟩
  | .reqWriteMultipleRegisters t u a q rs =>
    ⟨.request, [0x10] ++ be16 a ++ be16 q ++ [BitVec.ofNat 8 (packRegs rs).length] ++ packRegs rs ++ envelopeBytes u t⟩
  | .rspReadCoils p => ⟨.response, 0x01 :: p⟩
  | .rspReadHoldingRegisters p => ⟨.response, 0x03 :: p⟩
  | .rspWriteSingleRegister p => ⟨.response, 0x06 :: p⟩
  | .rspWriteMultipleCoils p => ⟨.response, 0x0F :: p⟩
  | .rspWriteMultipleRegisters p => ⟨.response, 0x10 :: p⟩
  | .rspException81 p => ⟨.response, 0x81 :: p⟩
  | .rspException83 p => ⟨.response, 0x83 :: p⟩
  | .rspException86 p => ⟨.response, 0x86 :: p⟩
  | .rspException8F p => ⟨.response, 0x8F :: p⟩
  | .rspException90 p => ⟨.response, 0x90 :: p⟩
  | .rspException fc p => ⟨.response, fc :: p⟩
  | .rspUnrecognised fc p => ⟨.response, fc :: p⟩
  | .evExecute h r c => ⟨.event, executeBytes hw h r c⟩
  | .evCancel h => ⟨.event, 0x02 :: beBytes (handleBytes hw) h⟩
  | .evRxByte b => ⟨.event, [0x03, b]⟩
  | .evRxIdle => ⟨.event, [0x04]⟩
  | .evTick => ⟨.event, [0x05]⟩
  | .evLinkUp => ⟨.event, [0x06]⟩
  | .evLinkDown => ⟨.event, [0x07]⟩
  | .crcInit => ⟨.crcOp, [0x00]⟩
  | .crcUpdate b => ⟨.crcOp, [0x01, b]⟩
  | .crcRead => ⟨.crcOp, [0x02]⟩

/-- The operand bytes (zeros) that complete a word of the opcode table in each space: an EXECUTE word with empty lists is
23 bytes and its handle, a request word without data 9, a response PDU with one operand byte 2, a CRC word 2. -/
def wordLen (hw : Nat) : Space → Nat
  | .event => 23 + handleBytes hw
  | .request => 9
  | .response => 2
  | .crcOp => 2

/-- The bytes of an nbits-bit word w of the opcode table, bit 0 the least significant bit of the first byte. -/
def tableBytes (nbits w : Nat) : List Byte :=
  (List.range ((nbits + 7) / 8)).map fun k => BitVec.ofNat 8 (w >>> (8 * k))

/-- That word as a port word of a space, every bit above nbits 0 up to the space's word length. -/
def tablePortWord (hw : Nat) (sp : Space) (nbits w : Nat) : PortWord :=
  ⟨sp, tableBytes nbits w ++ List.replicate (wordLen hw sp - (nbits + 7) / 8) 0⟩

/-- The instruction a port word carries, if any. -/
def decode? (hw : Nat) (w : PortWord) : Option Instr :=
  match decode hw w with
  | .ok i => some i
  | .error _ => none

/-- The space a table word is read in when nothing else names it: the first of event, request, response and CRC operation
in which it carries an instruction (notes/assumptions/8.md, DESIGN CHOICE). -/
def tableSpace (hw nbits w : Nat) : Space :=
  if (decode? hw (tablePortWord hw .event nbits w)).isSome then .event
  else if (decode? hw (tablePortWord hw .request nbits w)).isSome then .request
  else if (decode? hw (tablePortWord hw .response nbits w)).isSome then .response
  else .crcOp

/-- The instruction the decoder of an instance with HANDLE_W = hw reads from a word of the opcode table. -/
def decodeTableWordAt (hw nbits w : Nat) : Option Instr :=
  decode? hw (tablePortWord hw (tableSpace hw nbits w) nbits w)

/-- The instruction the decoder reads from a word of the opcode table, at the instance of `State.reset`. -/
def decodeTableWord (nbits w : Nat) : Option Instr := decodeTableWordAt Config.instanceParams.handleW nbits w

end Sys2Proof
end

