-- ==== Sys2Proof/Machine/State.lean ====
section
/-! DEFINITION. The state of mbcodec (10_state R30 to R53), its outputs (30_encoding R105 to R110), the values its codec
functions return (42_decode), and the reasons a step stops. -/

namespace Sys2Proof.Machine

/-- `link` (R32): the block's view of the transport session. Code 3 is never held, so the type leaves it out. -/
inductive Link where
  /-- 0: no session. -/
  | down
  /-- 1: REQ_OPEN emitted, LINK_UP not yet received. -/
  | opening
  /-- 2: session open. -/
  | up
  deriving DecidableEq, Repr

/-- `ctx[i].phase` (R44). Codes 11 .. 15 are never held, so the type leaves them out. -/
inductive Phase where
  /-- 0, resting: the context is free. -/
  | idle
  /-- 1, transient. -/
  | sending
  /-- 2, resting, timed by timeout_ms. -/
  | awaitingResponse
  /-- 3, transient. -/
  | decoding
  /-- 4, transient. -/
  | timedOut
  /-- 5, transient. -/
  | retryOrFail
  /-- 6, transient. -/
  | exceptionReceived
  /-- 7, resting, timed by retry_backoff_ms. -/
  | backoff
  /-- 8, resting, timed by timeout_ms, RTU only. -/
  | resyncWait
  /-- 9, resting, timed by timeout_ms. -/
  | linkWait
  /-- 10, resting, timed by timeout_ms, RTU only. -/
  | draining
  deriving DecidableEq, Repr

/-- `ctx[i].txn` (R43): the completion state of the transaction the context holds. Codes 6 and 7 are never held. -/
inductive Txn where
  /-- 0: no transaction registered. -/
  | none
  /-- 1. -/
  | pending
  /-- 2. -/
  | completed
  /-- 3. -/
  | failed
  /-- 4. -/
  | timedOut
  /-- 5. -/
  | cancelled
  deriving DecidableEq, Repr

/-- The status of a RESULT and of `last_err` (R300). Codes 10 .. 15 are never emitted. -/
inductive Status where
  /-- 0. -/
  | ok
  /-- 1. -/
  | invalidRequest
  /-- 2. -/
  | connectionError
  /-- 3. -/
  | timeout
  /-- 4. -/
  | checksumMismatch
  /-- 5. -/
  | malformedFrame
  /-- 6. -/
  | modbusException
  /-- 7. -/
  | busy
  /-- 8. -/
  | cancelled
  /-- 9. -/
  | connectionLost
  deriving DecidableEq, Repr

/-- One execute context (R40). -/
structure Ctx where
  /-- The context's state in the engine state machine (R44). -/
  phase : Phase
  /-- The host's tag of the execute (R40). -/
  handle : Handle
  /-- The request latched by EXECUTE (R41). -/
  req : Req
  /-- The configuration latched by EXECUTE (R42). -/
  cfg : ExecCfg
  /-- Retries already started for this execute (R43). -/
  attempt : Word32
  /-- The transaction id of the current or last registration (R43). -/
  tid : Tid
  /-- The completion state of the held transaction (R43). -/
  txn : Txn
  /-- TICKs spent in the current timed phase (R43, R316). -/
  timer : Word32
  /-- The status of the most recent failed attempt; OK (code 0) when none (R43). -/
  lastErr : Status
  deriving DecidableEq, Repr

/-- The body of an OK result (R109, R188). -/
inductive Body where
  /-- The register values read, for 0x03. -/
  | registers (values : List Word16)
  /-- The coil values read, for 0x01. -/
  | coils (values : List Bool)
  /-- The write acknowledgment, for 0x06 (value = the register value), 0x0F and 0x10 (value = the quantity). -/
  | ack (addr value : Word16)
  deriving DecidableEq, Repr

/-- RESULT (R109): the end of one execute. -/
structure ExecResult where
  /-- The EXECUTE's handle. -/
  handle : Handle
  /-- The status code (R300). -/
  status : Status
  /-- The exception code when the status is ModbusException, else 0. -/
  excCode : Byte
  /-- The transaction id of the attempt that completed, for an OK result on TCP. -/
  tid : Option Tid
  /-- The response's content, for an OK result. -/
  body : Option Body
  deriving DecidableEq, Repr

/-- The kinds of NOTE (R110): kind 1 is the only one ever emitted. -/
inductive NoteKind where
  /-- 1: a discarded stray frame. -/
  | strayFrame
  deriving DecidableEq, Repr

/-- Output events (R108). -/
inductive Output where
  /-- TX_FRAME (0x1): one whole frame to transmit (R105). -/
  | txFrame (bytes : List Byte)
  /-- REQ_OPEN (0x2): open the session (R106). -/
  | reqOpen
  /-- REQ_CLOSE (0x3): close the session (R107). -/
  | reqClose
  /-- RESULT (0x4): the end of one execute (R109). -/
  | result (r : ExecResult)
  /-- NOTE (0x5): a discarded stray frame (R110). -/
  | note (kind : NoteKind) (tid : Option Tid)
  deriving DecidableEq, Repr

/-- A decoded frame (R174): a value inside one step. -/
structure Frame where
  /-- Some id for TCP, none for RTU. -/
  tid : Option Tid
  /-- Unit id. -/
  unit : Byte
  /-- The PDU bytes. -/
  pdu : List Byte
  deriving DecidableEq, Repr

/-- The DecodeError kinds of the frame codec (R170, R173). -/
inductive FrameError where
  /-- More bytes are needed; not an error of the frame. -/
  | truncated
  /-- The trailing CRC differs from the computed one. -/
  | checksumMismatch
  /-- The MBAP header is not one, or does not give the frame's length. -/
  | malformedLength
  deriving DecidableEq, Repr

/-- What `decode_pdu` gives (R175). -/
inductive DecodedPdu where
  /-- `Exc{fc, code}`: an exception response for base function code fc. -/
  | exc (fc code : Byte)
  /-- `Regs{values}`. -/
  | regs (values : List Word16)
  /-- `CoilBytes{data}`. -/
  | coilBytes (data : List Byte)
  /-- `Wr{fc, addr, value}`. -/
  | wr (fc : Byte) (addr value : Word16)
  /-- `Invalid`. -/
  | invalid
  deriving DecidableEq, Repr

/-- What `match_check` gives (R182). -/
inductive MatchResult where
  /-- `Good(body)`. -/
  | good (body : Body)
  /-- `Exc(code)`. -/
  | exc (code : Byte)
  /-- `Invalid`. -/
  | invalid
  deriving DecidableEq, Repr

/-- What `rtu_expected_len` gives (R212). -/
inductive ExpectedLen where
  /-- More bytes are needed to know. -/
  | wait
  /-- The frame's length in bytes. -/
  | bytes (n : Nat)
  /-- The frame ends at the next silence. -/
  | silence
  deriving DecidableEq, Repr

/-- The value a codec or CRC operation returned to its caller (R16, R133, R150, R175). -/
inductive CodecValue where
  /-- No codec operation was the last step. -/
  | none
  /-- The frame `encode` built. -/
  | frame (bytes : List Byte)
  /-- The PDU `decode_pdu` decoded. -/
  | pdu (d : DecodedPdu)
  /-- The CRC that CRC_READ returned. -/
  | crc (v : Word16)
  deriving DecidableEq, Repr

/-- A byte store: (index, byte) pairs with indices strictly rising and no byte equal to what an unlisted index reads as. -/
abbrev Memory := List Host.Cell

/-- The state of the block (R30) with the parameter HANDLE_W (R11), which nothing writes, then the model's own port fields (notes/assumptions/4.md to 6.md). -/
structure State where
  /-- KIND (R31). -/
  kind : Kind
  /-- HANDLE_W (R11): the parameter that gives the width of the handles at the ports. -/
  handleW : Nat
  /-- `link` (R32). -/
  link : Link
  /-- `tid_ctr` (R33). -/
  tidCtr : Tid
  /-- `rxbuf` (R34): bytes 0 .. RXBUF_CAP - 1. -/
  rxbuf : Memory
  /-- `rxlen` (R34): the fill count, 0 .. RXBUF_CAP. -/
  rxlen : Nat
  /-- `rx_discard` (R35). -/
  rxDiscard : Bool
  /-- `line_quiet` (R36). -/
  lineQuiet : Bool
  /-- `crc` (R37). -/
  crc : Word16
  /-- `ctx[0 .. N_CTX - 1]` (R40). -/
  ctxs : List Ctx
  /-- The MODEL's own: the port words delivered and not yet taken, in delivery order (R9, R81). -/
  inbox : List PortWord
  /-- The MODEL's own: the ordered output list of the step just taken (R108). -/
  out : List Output
  /-- The MODEL's own: what the codec or CRC operation just stepped returned. -/
  codec : CodecValue
  deriving DecidableEq, Repr

/-- Why the machine stops. Both stops are SAFE: the spec puts each of these states outside the machine. -/
inductive Fault where
  /-- Raised by every input event in a state outside the machine: a context in a transient phase between steps, a context
  table no instance has, a fill count outside 0 .. RXBUF_CAP (R34, R40, R45; 93_implementation_defined: stuck). Safe:
  no run from reset reaches such a state. -/
  | outsideTheMachine
  /-- Raised by RX_BYTE on TCP with the buffer full: an append at index RXBUF_CAP, which does not exist (R201's
  precondition). Safe: by R204 no run from reset reaches it. -/
  | bufferIndexOutOfRange
  deriving DecidableEq, Repr

/-- Why a step has no meaning. -/
inductive Refusal where
  /-- Raised by an instruction that has no meaning yet. Safe. No instruction raises it in this model. -/
  | notModelled (mnemonic : String)
  /-- Raised by the step when the next port word carries no instruction: "a decoder of event words refuses them (no step)"
  (R119). Safe. -/
  | noInstruction (e : DecodeError)
  deriving DecidableEq, Repr

/-- What a step answers. -/
abbrev Answer := Host.Outcome State Fault Refusal

/-- The request of a context at reset (R53). -/
def Req.zero : Req := ⟨0, 0, 0, 0, [], []⟩

/-- The configuration of a context at reset (R53). -/
def ExecCfg.zero : ExecCfg := ⟨0, 0, 0⟩

/-- An execute context at reset (R53). -/
def Ctx.reset : Ctx where
  phase := .idle
  handle := 0
  req := Req.zero
  cfg := ExecCfg.zero
  attempt := 0
  tid := 0
  txn := .none
  timer := 0
  lastErr := .ok

/-- The state after reset (R53, R330) of the instance with parameters p. -/
def State.resetOf (p : Params) : State where
  kind := p.kind
  handleW := p.handleW
  link := .down
  tidCtr := 0x0000
  rxbuf := []
  rxlen := 0
  rxDiscard := false
  lineQuiet := true
  crc := 0xFFFF
  ctxs := List.replicate p.nCtx Ctx.reset
  inbox := []
  out := []
  codec := .none

/-- The state after reset of the instance of `Config.instanceParams` (notes/assumptions/1.md). -/
def State.reset : State := State.resetOf Config.instanceParams

end Sys2Proof.Machine
end

