-- ==== Sys2Proof/Machine/Flags.lean ====
section
/-! DEFINITION. The block's status bits (10_state R50: `line_quiet`, `rx_discard`, `link`), the predicates on a context's
phase, and the numeric codes of every enumerated register and output. -/

namespace Sys2Proof.Machine

/-- The code of KIND (R31). -/
def kindCode : Kind → BitVec 1
  | .rtu => 0
  | .tcp => 1

/-- The code of `link` (R32). -/
def linkCode : Link → BitVec 2
  | .down => 0
  | .opening => 1
  | .up => 2

/-- The code of a phase (R44). -/
def phaseCode : Phase → BitVec 4
  | .idle => 0
  | .sending => 1
  | .awaitingResponse => 2
  | .decoding => 3
  | .timedOut => 4
  | .retryOrFail => 5
  | .exceptionReceived => 6
  | .backoff => 7
  | .resyncWait => 8
  | .linkWait => 9
  | .draining => 10

/-- The code of `txn` (R43). -/
def txnCode : Txn → BitVec 3
  | .none => 0
  | .pending => 1
  | .completed => 2
  | .failed => 3
  | .timedOut => 4
  | .cancelled => 5

/-- The status codes (R300). -/
def statusCode : Status → BitVec 4
  | .ok => 0
  | .invalidRequest => 1
  | .connectionError => 2
  | .timeout => 3
  | .checksumMismatch => 4
  | .malformedFrame => 5
  | .modbusException => 6
  | .busy => 7
  | .cancelled => 8
  | .connectionLost => 9

/-- The output type codes (R108). -/
def outputTypeCode : Output → BitVec 4
  | .txFrame _ => 1
  | .reqOpen => 2
  | .reqClose => 3
  | .result _ => 4
  | .note _ _ => 5

/-- The NOTE kind codes (R110). -/
def noteKindCode : NoteKind → BitVec 4
  | .strayFrame => 1

/-- The names of the exception codes (R112). The block passes every code through unchanged and reads no name. -/
def exceptionName (code : Byte) : Option String :=
  if code = 0x01 then some "IllegalFunction"
  else if code = 0x02 then some "IllegalDataAddress"
  else if code = 0x03 then some "IllegalDataValue"
  else if code = 0x04 then some "SlaveDeviceFailure"
  else if code = 0x05 then some "Acknowledge"
  else if code = 0x06 then some "SlaveDeviceBusy"
  else none

/-- A resting phase is held between steps; the others are transient (R45). -/
def isResting : Phase → Bool
  | .idle => true
  | .sending => false
  | .awaitingResponse => true
  | .decoding => false
  | .timedOut => false
  | .retryOrFail => false
  | .exceptionReceived => false
  | .backoff => true
  | .resyncWait => true
  | .linkWait => true
  | .draining => true

/-- The timed resting phases, whose timer advances on TICK (R45, R270). -/
def isTimed : Phase → Bool
  | .idle => false
  | .sending => false
  | .awaitingResponse => true
  | .decoding => false
  | .timedOut => false
  | .retryOrFail => false
  | .exceptionReceived => false
  | .backoff => true
  | .resyncWait => true
  | .linkWait => true
  | .draining => true

/-- A context is active when its phase is neither Idle nor Draining: it holds an execute and its handle (R251). -/
def isActive : Phase → Bool
  | .idle => false
  | .sending => true
  | .awaitingResponse => true
  | .decoding => true
  | .timedOut => true
  | .retryOrFail => true
  | .exceptionReceived => true
  | .backoff => true
  | .resyncWait => true
  | .linkWait => true
  | .draining => false

/-- The failures that are retried per policy (R303). -/
def retryable : Status → Bool
  | .ok => false
  | .invalidRequest => false
  | .connectionError => true
  | .timeout => true
  | .checksumMismatch => true
  | .malformedFrame => true
  | .modbusException => false
  | .busy => false
  | .cancelled => false
  | .connectionLost => true

/-- `link <- l`. -/
def State.setLink (l : Link) (s : State) : State := { s with link := l }

/-- `line_quiet <- 0`: a byte was taken (R210). -/
def State.lineBusy (s : State) : State := { s with lineQuiet := false }

/-- `line_quiet <- 1`: the line is silent (R214, R276). -/
def State.lineSilent (s : State) : State := { s with lineQuiet := true }

/-- `rx_discard <- NOT line_quiet`: a resync starts unless the silence window has already passed (R213, R221). -/
def State.startDiscard (s : State) : State := { s with rxDiscard := !s.lineQuiet }

/-- `rx_discard <- 0`: the resync ends (R214, R273, R276). -/
def State.endDiscard (s : State) : State := { s with rxDiscard := false }

end Sys2Proof.Machine
end

