-- ==== Sys2Proof/Machine/Codec.lean ====
section
/-! DEFINITION. The pure functions of the frame codec: the CRC-16 generator's arithmetic (40_crc), validation and encoding
(41_encode), frame and PDU decode and the response match (42_decode), and the length inference of the receive framers
(43_reassembly R207, R212). They read only their arguments (R17). -/

namespace Sys2Proof.Machine

/-! ### CRC-16 (40_crc) -/

/-- One of the eight steps of CRC_UPDATE (R132). -/
def crcShift (c : Word16) : Word16 :=
  if c.getLsbD 0 then (c >>> 1) ^^^ 0xA001 else c >>> 1

/-- The register after CRC_UPDATE(b) (R132). -/
def crcUpdateByte (c : Word16) (b : Byte) : Word16 :=
  crcShift (crcShift (crcShift (crcShift (crcShift (crcShift (crcShift (crcShift (c ^^^ b.setWidth 16))))))))

/-- `crc16(s)` (R133): CRC_INIT, then CRC_UPDATE for each byte in wire order, then CRC_READ. -/
def crc16 (s : List Byte) : Word16 := s.foldl crcUpdateByte 0xFFFF

/-- `crc_ok(s)` (R134), for a frame of at least 4 bytes. -/
def crcOk (s : List Byte) : Bool := crc16 (s.take (s.length - 2)) == rdLE16 s (s.length - 2)

/-! ### Validation (41_encode section 1) -/

/-- Membership in the five function codes (R145). -/
def functionCodeOk (fc : Byte) : Bool :=
  fc == 0x01 || fc == 0x03 || fc == 0x06 || fc == 0x0F || fc == 0x10

/-- A quantity in 1 .. max with `addr + qty <= 65536` (R141). -/
def quantityOk (max : Nat) (r : Req) : Bool :=
  decide (1 ≤ r.qty.toNat) && decide (r.qty.toNat ≤ max) && decide (r.addr.toNat + r.qty.toNat ≤ 65536)

/-- `limits_ok(req)` (R141). -/
def limitsOk (r : Req) : Bool :=
  if r.fc = 0x01 then quantityOk Config.maxCoilQty r
  else if r.fc = 0x03 then quantityOk Config.maxRegQty r
  else if r.fc = 0x06 then r.qty == 1
  else if r.fc = 0x0F then quantityOk Config.maxCoilQty r
  else if r.fc = 0x10 then quantityOk Config.maxRegQty r
  else false

/-- `payload_ok(req)` (R142): a list the function code does not use is empty. -/
def payloadOk (r : Req) : Bool :=
  if r.fc = 0x01 then r.regs.isEmpty && r.coils.isEmpty
  else if r.fc = 0x03 then r.regs.isEmpty && r.coils.isEmpty
  else if r.fc = 0x06 then r.regs.length == 1 && r.coils.isEmpty
  else if r.fc = 0x0F then r.regs.isEmpty && r.coils.length == r.qty.toNat
  else if r.fc = 0x10 then r.regs.length == r.qty.toNat && r.coils.isEmpty
  else false

/-- `cfg_ok(cfg)` (R144). -/
def cfgOk (c : ExecCfg) : Bool := decide (1 ≤ c.timeoutMs.toNat)

/-- The part of validation that reads the request. -/
def requestOk (r : Req) : Bool := functionCodeOk r.fc && limitsOk r && payloadOk r

/-- `validate(req, cfg)` (R140): true is Ok, false is Err(InvalidRequest). -/
def validate (r : Req) (c : ExecCfg) : Bool := requestOk r && cfgOk c

/-! ### Encoding (41_encode section 2) -/

/-- PDU of READ_COILS (R152). -/
def pduReadCoils (addr qty : Word16) : List Byte := [0x01] ++ be16 addr ++ be16 qty

/-- PDU of READ_HOLDING_REGISTERS (R153). -/
def pduReadHoldingRegisters (addr qty : Word16) : List Byte := [0x03] ++ be16 addr ++ be16 qty

/-- PDU of WRITE_SINGLE_REGISTER (R154). -/
def pduWriteSingleRegister (addr value : Word16) : List Byte := [0x06] ++ be16 addr ++ be16 value

/-- PDU of WRITE_MULTIPLE_COILS (R155). -/
def pduWriteMultipleCoils (addr qty : Word16) (coils : List Bool) : List Byte :=
  [0x0F] ++ be16 addr ++ be16 qty ++ [BitVec.ofNat 8 (packCoils coils).length] ++ packCoils coils

/-- PDU of WRITE_MULTIPLE_REGISTERS (R156). -/
def pduWriteMultipleRegisters (addr qty : Word16) (regs : List Word16) : List Byte :=
  [0x10] ++ be16 addr ++ be16 qty ++ [BitVec.ofNat 8 (packRegs regs).length] ++ packRegs regs

/-- `pdu_of(req)` (R151). It is asked only of a valid request; of another function code it is empty. -/
def pduOf (r : Req) : List Byte :=
  if r.fc = 0x01 then pduReadCoils r.addr r.qty
  else if r.fc = 0x03 then pduReadHoldingRegisters r.addr r.qty
  else if r.fc = 0x06 then pduWriteSingleRegister r.addr (r.regs.getD 0 0)
  else if r.fc = 0x0F then pduWriteMultipleCoils r.addr r.qty r.coils
  else if r.fc = 0x10 then pduWriteMultipleRegisters r.addr r.qty r.regs
  else []

/-- `encode_rtu(unit, p)` (R157). -/
def encodeRtu (unit : Byte) (p : List Byte) : List Byte := (unit :: p) ++ le16 (crc16 (unit :: p))

/-- `encode_tcp(tid, unit, p)` (R158). -/
def encodeTcp (tid : Tid) (unit : Byte) (p : List Byte) : List Byte :=
  be16 tid ++ be16 0x0000 ++ be16 (BitVec.ofNat 16 (1 + p.length)) ++ (unit :: p)

/-- `encode(req, kind, tid)` (R150). On a request that validation refuses its value "is not defined": a free value
(notes/assumptions/11.md, DESIGN CHOICE, safe). -/
def encodeFrame (r : Req) (k : Kind) (tid : Tid) : List Byte :=
  if requestOk r then
    match k with
    | .rtu => encodeRtu r.unit (pduOf r)
    | .tcp => encodeTcp tid r.unit (pduOf r)
  else Config.undefinedFrame k tid r.unit r.fc r.addr r.qty r.regs r.coils

/-- `request_of_pdu(p)` with the frame's unit id (R163): the inverse of `pdu_of`, used by no step. -/
def requestOfPdu (unit : Byte) (p : List Byte) : Req :=
  let fc := byteAt p 0
  let addr := rdBE16 p 1
  let qty := rdBE16 p 3
  if fc = 0x06 then ⟨fc, unit, addr, 1, [qty], []⟩
  else if fc = 0x0F then ⟨fc, unit, addr, qty, [], unpackCoils qty.toNat (p.drop 6)⟩
  else if fc = 0x10 then ⟨fc, unit, addr, qty, unpackRegs qty.toNat (p.drop 6), []⟩
  else ⟨fc, unit, addr, qty, [], []⟩

/-! ### Frame decode (42_decode section 1) -/

/-- `decode_rtu(s)` (R171). -/
def decodeRtu (s : List Byte) : Except FrameError Frame :=
  if s.length < 4 then .error .truncated
  else if crcOk s then .ok ⟨none, byteAt s 0, sliceBytes s 1 (s.length - 2)⟩
  else .error .checksumMismatch

/-- `decode_tcp(s)` (R172). -/
def decodeTcp (s : List Byte) : Except FrameError Frame :=
  if s.length < 6 then .error .truncated
  else if rdBE16 s 2 ≠ 0 ∨ (rdBE16 s 4).toNat < 2 then .error .malformedLength
  else if s.length < 6 + (rdBE16 s 4).toNat then .error .truncated
  else if s.length > 6 + (rdBE16 s 4).toNat then .error .malformedLength
  else .ok ⟨some (rdBE16 s 0), byteAt s 6, sliceBytes s 7 (6 + (rdBE16 s 4).toNat)⟩

/-- `decode(s, kind)` (R170). -/
def decodeFrame (s : List Byte) : Kind → Except FrameError Frame
  | .rtu => decodeRtu s
  | .tcp => decodeTcp s

/-- The status a decode kind becomes (R302): none for Truncated. -/
def frameErrorStatus : FrameError → Option Status
  | .truncated => none
  | .checksumMismatch => some .checksumMismatch
  | .malformedLength => some .malformedFrame

/-! ### PDU decode (42_decode section 2) -/

/-- `decode_exc(p)` (R176). -/
def decodeExc (p : List Byte) : DecodedPdu :=
  if p.length = 2 then .exc (byteAt p 0 &&& 0x7F) (byteAt p 1) else .invalid

/-- `decode_rc(p)` (R177). -/
def decodeReadCoils (p : List Byte) : DecodedPdu :=
  if p.length ≥ 2 ∧ p.length = 2 + (byteAt p 1).toNat then .coilBytes (p.drop 2) else .invalid

/-- `decode_rhr(p)` (R178). -/
def decodeReadHoldingRegisters (p : List Byte) : DecodedPdu :=
  if p.length ≥ 2 ∧ p.length = 2 + (byteAt p 1).toNat ∧ (byteAt p 1).toNat % 2 = 0 then
    .regs (unpackRegs ((byteAt p 1).toNat / 2) (p.drop 2))
  else .invalid

/-- `decode_wsr(p)` (R179). -/
def decodeWriteSingleRegister (p : List Byte) : DecodedPdu :=
  if p.length = 5 then .wr 0x06 (rdBE16 p 1) (rdBE16 p 3) else .invalid

/-- `decode_wmc(p)` (R180). -/
def decodeWriteMultipleCoils (p : List Byte) : DecodedPdu :=
  if p.length = 5 then .wr 0x0F (rdBE16 p 1) (rdBE16 p 3) else .invalid

/-- `decode_wmr(p)` (R181). -/
def decodeWriteMultipleRegisters (p : List Byte) : DecodedPdu :=
  if p.length = 5 then .wr 0x10 (rdBE16 p 1) (rdBE16 p 3) else .invalid

/-- `decode_pdu(p)` (R175). -/
def decodePdu (p : List Byte) : DecodedPdu :=
  match p with
  | [] => .invalid
  | fc :: _ =>
    if fc.getLsbD 7 then decodeExc p
    else if fc = 0x01 then decodeReadCoils p
    else if fc = 0x03 then decodeReadHoldingRegisters p
    else if fc = 0x06 then decodeWriteSingleRegister p
    else if fc = 0x0F then decodeWriteMultipleCoils p
    else if fc = 0x10 then decodeWriteMultipleRegisters p
    else .invalid

/-! ### Response match (42_decode section 3) -/

/-- `check_rhr(req, v)` (R184). -/
def checkReadHoldingRegisters (r : Req) (v : List Word16) : MatchResult :=
  if v.length = r.qty.toNat then .good (.registers v) else .invalid

/-- `check_rc(req, data)` (R185): the padding bits are ignored. -/
def checkReadCoils (r : Req) (data : List Byte) : MatchResult :=
  if data.length = coilByteCount r.qty.toNat then .good (.coils (unpackCoils r.qty.toNat data)) else .invalid

/-- `check_wsr(req, a, v)` (R186). -/
def checkWriteSingleRegister (r : Req) (a v : Word16) : MatchResult :=
  if a = r.addr ∧ v = r.regs.getD 0 0 then .good (.ack a v) else .invalid

/-- `check_wmul(req, a, v)` (R187). -/
def checkWriteMultiple (r : Req) (a v : Word16) : MatchResult :=
  if a = r.addr ∧ v = r.qty then .good (.ack a v) else .invalid

/-- The exception match (R183): the code passes through unchanged. -/
def checkException (r : Req) (fc code : Byte) : MatchResult :=
  if fc = r.fc then .exc code else .invalid

/-- The case table of `match_check` (R182) for a PDU from the right unit. -/
def checkDecoded (r : Req) : DecodedPdu → MatchResult
  | .invalid => .invalid
  | .exc fc code => checkException r fc code
  | .regs v => if r.fc = 0x03 then checkReadHoldingRegisters r v else .invalid
  | .coilBytes d => if r.fc = 0x01 then checkReadCoils r d else .invalid
  | .wr fc a v =>
    if r.fc = fc then
      if fc = 0x06 then checkWriteSingleRegister r a v
      else if fc = 0x0F then checkWriteMultiple r a v
      else if fc = 0x10 then checkWriteMultiple r a v
      else .invalid
    else .invalid

/-- `match_check(req, unit, p)` (R182): the unit id must match for both kinds. -/
def matchCheck (r : Req) (unit : Byte) (p : List Byte) : MatchResult :=
  if unit = r.unit then checkDecoded r (decodePdu p) else .invalid

/-! ### Length inference of the receive framers (43_reassembly) -/

/-- `header_ok()` on the buffer's bytes (R207). -/
def headerOk (s : List Byte) : Bool :=
  rdBE16 s 2 == 0 && decide (2 ≤ (rdBE16 s 4).toNat) && decide ((rdBE16 s 4).toNat ≤ Config.maxMbapLen)

/-- `rtu_expected_len()` on the buffer's bytes (R212). -/
def rtuExpectedLen (s : List Byte) : ExpectedLen :=
  if s.length < 2 then .wait
  else if (byteAt s 1).getLsbD 7 then .bytes 5
  else if byteAt s 1 = 0x06 ∨ byteAt s 1 = 0x0F ∨ byteAt s 1 = 0x10 then .bytes 8
  else if byteAt s 1 = 0x01 ∨ byteAt s 1 = 0x03 then
    if s.length < 3 then .wait else .bytes (5 + (byteAt s 2).toNat)
  else .silence

end Sys2Proof.Machine
end

