-- ==== Sys2Proof/Machine/Ops.lean ====
section
/-! DEFINITION. The named operations on the state: the buffer (43_reassembly section 1), contexts and outputs, the CRC
register, the transaction registry (44_registry), and the engine's shared procedures (45_engine section 2). Taking an
exception is `attemptFail` (60_exceptions R310, the failure entry) and the return from it is `sendAttempt` (R311, the
retry). -/

namespace Sys2Proof.Machine

/-! ### The byte store -/

/-- What an unlisted index reads as. DESIGN CHOICE (notes/assumptions/3.md, unsafe): 0x00; "a model may hold any value
there" (R334), and no rule reads such a byte. -/
def Memory.unlisted : Byte := 0x00

/-- One byte of the store. -/
def Memory.read : Memory → Nat → Byte
  | [], _ => Memory.unlisted
  | (k, b) :: m, a => if k = a then b else Memory.read m a

/-- The store with one byte written, in canonical form. -/
def Memory.write : Memory → Nat → Byte → Memory
  | [], a, b => if b = Memory.unlisted then [] else [(a, b)]
  | (k, c) :: m, a, b =>
    if a < k then (if b = Memory.unlisted then (k, c) :: m else (a, b) :: (k, c) :: m)
    else if a = k then (if b = Memory.unlisted then m else (a, b) :: m)
    else (k, c) :: Memory.write m a b

/-- Every listed index is at least lo, the indices rise strictly, and no listed byte is the unlisted one. -/
def Memory.wfFrom : Nat → Memory → Bool
  | _, [] => true
  | lo, (k, b) :: m => decide (lo ≤ k) && (b != Memory.unlisted) && Memory.wfFrom (k + 1) m

/-- The canonical form. -/
def Memory.wf (m : Memory) : Bool := Memory.wfFrom 0 m

/-! ### The reassembly buffer -/

/-- `MemRead(i, n)` (R203): rxbuf[i .. i+n). -/
def State.memRead (s : State) (i n : Nat) : List Byte :=
  (List.range n).map fun k => Memory.read s.rxbuf (i + k)

/-- The bytes under reassembly: `MemRead(0, rxlen)` (R203). -/
def State.bufBytes (s : State) : List Byte := s.memRead 0 s.rxlen

/-- `BufAppend(b)` (R201), called only with rxlen < RXBUF_CAP. -/
def State.bufAppend (b : Byte) (s : State) : State :=
  { s with rxbuf := Memory.write s.rxbuf s.rxlen b, rxlen := s.rxlen + 1 }

/-- `BufClear()` (R202): the bytes are left as they are. -/
def State.bufClear (s : State) : State := { s with rxlen := 0 }

/-! ### Outputs, contexts, the CRC register -/

/-- A step begins: its output list is empty and no codec operation has returned a value (R108, R174). -/
def State.begin (s : State) : State := { s with out := [], codec := .none }

/-- `emit O(...)` (R16): appends to the step's output list. -/
def State.emit (o : Output) (s : State) : State := { s with out := s.out ++ [o] }

/-- `ctx[i]`. -/
def State.ctx (s : State) (i : Nat) : Ctx := s.ctxs.getD i Ctx.reset

/-- A write to fields of `ctx[i]`. -/
def State.modCtx (i : Nat) (f : Ctx → Ctx) (s : State) : State := { s with ctxs := s.ctxs.modify i f }

/-- `ctx[i].phase <- p`. -/
def State.setPhase (i : Nat) (p : Phase) (s : State) : State := s.modCtx i fun c => { c with phase := p }

/-- `ctx[i].phase <- p; ctx[i].timer <- 0`: a timed phase is entered. -/
def State.enterPhase (i : Nat) (p : Phase) (s : State) : State :=
  s.modCtx i fun c => { c with phase := p, timer := 0 }

/-- `ctx[i].txn <- t`. -/
def State.setTxn (i : Nat) (t : Txn) (s : State) : State := s.modCtx i fun c => { c with txn := t }

/-- `for i in 0 .. N_CTX - 1 (ascending)` (R17, R20). -/
def State.forCtx (f : Nat → State → State) (s : State) : State :=
  (List.range s.ctxs.length).foldl (fun t i => f i t) s

/-- CRC_INIT on the register (R131). -/
def State.crcInit (s : State) : State := { s with crc := 0xFFFF }

/-- CRC_UPDATE(b) on the register (R132). -/
def State.crcUpdate (b : Byte) (s : State) : State := { s with crc := crcUpdateByte s.crc b }

/-- A failing or refusing RESULT (R305): it carries no tid and no body. -/
def plainResult (h : Handle) (st : Status) (code : Byte) : Output := .result ⟨h, st, code, none, none⟩

/-! ### The transaction registry (44_registry) -/

/-- Is id t held by a Pending transaction (R232)? -/
def State.tidPending (s : State) (t : Tid) : Bool := s.ctxs.any fun c => c.txn == .pending && c.tid == t

/-- The loop of `alloc_tid!` (R232), which skips Pending ids. `fuel` is the number of entries: fewer than that many can be
Pending when the caller is not, so the loop has ended before the fuel has (notes/assumptions/14.md, DEDUCED, safe). -/
def State.freeTid (s : State) : Nat → Tid → Tid
  | 0, t => t
  | fuel + 1, t => if s.tidPending t then s.freeTid fuel (t + 1) else t

/-- The id `alloc_tid!` returns (R232). -/
def State.nextTid (s : State) : Tid := s.freeTid s.ctxs.length s.tidCtr

/-- `register!(i)` (R233): `alloc_tid!` on TCP, id 0 on RTU; the transaction is Pending. -/
def registerTxn (i : Nat) (s : State) : State :=
  match s.kind with
  | .tcp => { s with tidCtr := s.nextTid + 1 }.modCtx i fun c => { c with tid := s.nextTid, txn := .pending }
  | .rtu => s.modCtx i fun c => { c with tid := 0, txn := .pending }

/-- `lookup(Some(t))` (R234): the lowest AwaitingResponse context whose Pending transaction has id t. -/
def State.lookup (s : State) (t : Tid) : Option Nat :=
  s.ctxs.findIdx? fun c => c.phase == .awaitingResponse && c.txn == .pending && c.tid == t

/-- `resolve!(i, Good or Exc)` (R235, R236). -/
def resolveCompleted (i : Nat) (s : State) : State := (s.setTxn i .completed).setTxn i .none

/-- `resolve!(i, failure err)` (R235, R236). -/
def resolveFailed (i : Nat) (s : State) : State := (s.setTxn i .failed).setTxn i .none

/-- `expire!(i)` (R237). -/
def expireTxn (i : Nat) (s : State) : State := (s.setTxn i .timedOut).setTxn i .none

/-- `cancel_txn!(i)` (R238). -/
def cancelTxn (i : Nat) (s : State) : State :=
  if (s.ctx i).txn = .pending then (s.setTxn i .cancelled).setTxn i .none else s

/-! ### The engine's shared procedures (45_engine section 2) -/

/-- `accept!(i, h, req, cfg)` (R253). -/
def acceptExecute (i : Nat) (h : Handle) (r : Req) (cfg : ExecCfg) (s : State) : State :=
  s.modCtx i fun c =>
    { c with handle := h, req := r, cfg := cfg, attempt := 0, lastErr := .ok, txn := .none, timer := 0, phase := .sending }

/-- `release!(i)` (R264): req, cfg, attempt, tid and last_err keep their values. -/
def release (i : Nat) (s : State) : State :=
  s.modCtx i fun c => { c with phase := .idle, handle := 0, txn := .none, timer := 0 }

/-- The frame of the current attempt of context i (R261): the latched request, encoded. -/
def State.frameOf (s : State) (i : Nat) : List Byte := encodeFrame (s.ctx i).req s.kind (s.ctx i).tid

/-- The frame of a registered attempt is sent and the response awaited (R261). An RTU send clears the buffer first.
`encode` is a pure function, so the register crc is not written (R17, R37). -/
def sendFrame (i : Nat) (s : State) : State :=
  match s.kind with
  | .tcp => (s.emit (.txFrame (s.frameOf i))).enterPhase i .awaitingResponse
  | .rtu => ((s.bufClear).emit (.txFrame (s.frameOf i))).enterPhase i .awaitingResponse

/-- The last branch of `sending!(i)` (R261): the session is open and no resync runs. -/
def transmit (i : Nat) (s : State) : State := sendFrame i (registerTxn i s)

/-- `sending!(i)` (R261), the retry's return to Sending (R311): it opens a closed session, waits for an opening one, waits
for a resync, or transmits. -/
def sendAttempt (i : Nat) (s : State) : State :=
  let s := s.setPhase i .sending
  match s.link with
  | .down => ((s.emit .reqOpen).setLink .opening).enterPhase i .linkWait
  | .opening => s.enterPhase i .linkWait
  | .up =>
    if s.kind = .rtu ∧ s.rxDiscard = true then s.enterPhase i .resyncWait
    else transmit i s

/-- `attempt_fail!(i, err)` (R262), the failure entry (R310): the failure is saved in last_err, the attempt's transaction
destroyed, and the context goes to Backoff (and at once to Sending when the backoff is zero) or ends with its RESULT. -/
def attemptFail (i : Nat) (err : Status) (s : State) : State :=
  let s := s.setPhase i .retryOrFail
  let s := if (s.ctx i).txn = .pending then resolveFailed i s else s
  let s := s.modCtx i fun c => { c with lastErr := err }
  if retryable err = true ∧ (s.ctx i).attempt < (s.ctx i).cfg.maxRetries then
    let s := s.modCtx i fun c => { c with attempt := c.attempt + 1, phase := .backoff, timer := 0 }
    if (s.ctx i).cfg.retryBackoffMs = 0 then sendAttempt i s else s
  else release i (s.emit (plainResult (s.ctx i).handle err 0))

/-- `complete!(i, Good(body))` (R263). -/
def completeGood (i : Nat) (body : Body) (s : State) : State :=
  let s := resolveCompleted i (s.setPhase i .decoding)
  let tid := match s.kind with
    | .tcp => some (s.ctx i).tid
    | .rtu => none
  release i (s.emit (.result ⟨(s.ctx i).handle, .ok, 0, tid, some body⟩))

/-- `complete!(i, Exc(code))` (R263): no retry, whatever the code (R304). -/
def completeExc (i : Nat) (code : Byte) (s : State) : State :=
  let s := (resolveCompleted i (s.setPhase i .decoding)).setPhase i .exceptionReceived
  release i (s.emit (plainResult (s.ctx i).handle .modbusException code))

/-! ### Steps -/

/-- Is the context table one that the instance's parameters give (R11, R40)? -/
def State.tableOk (s : State) : Bool :=
  match s.kind with
  | .rtu => s.ctxs.length == 1
  | .tcp => decide (1 ≤ s.ctxs.length) && decide (s.ctxs.length ≤ Config.maxTcpCtx)

/-- A state of the machine between two steps: a context table of an instance, every phase resting (R45), rxlen within the
buffer (R34). Any other state is outside the machine (93_implementation_defined: stuck). -/
def State.legal (s : State) : Bool :=
  s.tableOk && s.ctxs.all (fun c => isResting c.phase) && decide (s.rxlen ≤ Config.rxbufCap)

/-- The step of an input event, run to completion (R20) in a state of the machine. -/
def runEvent (h : State → State) (s : State) : Answer :=
  if s.legal then .next (h s.begin) else .fault .outsideTheMachine

/-- The step of a codec operation: it returns a value to its caller, and writes no other state (notes/assumptions/6.md). -/
def runCodec (v : CodecValue) (s : State) : Answer := .next { s.begin with codec := v }

end Sys2Proof.Machine
end

