-- ==== Sys2Proof/Machine/Crc.lean ====
section
/-! DEFINITION. The CRC generator operations as instructions (40_crc R131 to R133). -/

namespace Sys2Proof.Machine

/-- CRC_INIT (R131): `crc <- 0xFFFF`. -/
def execCrcInit (s : State) : Answer := .next s.begin.crcInit

/-- CRC_UPDATE(b) (R132): XOR, then eight shift steps. -/
def execCrcUpdate (b : Byte) (s : State) : Answer := .next (s.begin.crcUpdate b)

/-- CRC_READ (R133): returns `crc`, which it does not write. -/
def execCrcRead (s : State) : Answer := runCodec (.crc s.crc) s

end Sys2Proof.Machine
end

