-- ==== Sys2Proof/Machine/Engine.lean ====
section
/-! DEFINITION. The transaction state machine's events: EXECUTE, CANCEL, TICK, LINK_UP, LINK_DOWN (45_engine). -/

namespace Sys2Proof.Machine

/-- The active context that holds handle h, lowest index first (R251, R266). -/
def State.findActive (s : State) (h : Handle) : Option Nat :=
  s.ctxs.findIdx? fun c => isActive c.phase && c.handle == h

/-- The lowest Idle context (R250, R252). -/
def State.findIdle (s : State) : Option Nat := s.ctxs.findIdx? fun c => c.phase == .idle

/-- `on EXECUTE(h, req, cfg)` (R250): validation first, then Busy for an active handle (R251), then Busy for no free
context (R252), then accept and send. -/
def onExecute (h : Handle) (r : Req) (cfg : ExecCfg) (s : State) : State :=
  if validate r cfg = false then s.emit (plainResult h .invalidRequest 0)
  else if (s.findActive h).isSome then s.emit (plainResult h .busy 0)
  else
    match s.findIdle with
    | none => s.emit (plainResult h .busy 0)
    | some i => sendAttempt i (acceptExecute i h r cfg s)

/-- `on CANCEL(h)` for the context i that holds h (R266). -/
def cancelCtx (h : Handle) (i : Nat) (s : State) : State :=
  let s := cancelTxn i (s.emit (plainResult h .cancelled 0))
  if s.kind = .rtu ∧ (s.ctx i).phase = .awaitingResponse then
    s.modCtx i fun c => { c with phase := .draining, handle := 0 }
  else release i s

/-- `on CANCEL(h)` (R266, R267). -/
def onCancel (h : Handle) (s : State) : State :=
  match s.findActive h with
  | none => s
  | some i => cancelCtx h i s

/-- `sat_32(v + 1)` (R13, R270): the timer saturates and never wraps. -/
def timerNext (t : Word32) : Word32 := if t = BitVec.allOnes 32 then t else t + 1

/-- `deadline_await!(i)` (R271). -/
def deadlineAwait (i : Nat) (s : State) : State :=
  attemptFail i .timeout (expireTxn i (s.setPhase i .timedOut))

/-- `deadline_resync!(i)` (R273). -/
def deadlineResync (i : Nat) (s : State) : State := sendAttempt i ((s.endDiscard).bufClear)

/-- The deadline test of one context after its timer advanced (R270). -/
def tickDeadline (i : Nat) (s : State) : State :=
  match (s.ctx i).phase with
  | .awaitingResponse => if (s.ctx i).cfg.timeoutMs ≤ (s.ctx i).timer then deadlineAwait i s else s
  | .backoff => if (s.ctx i).cfg.retryBackoffMs ≤ (s.ctx i).timer then sendAttempt i s else s
  | .resyncWait => if (s.ctx i).cfg.timeoutMs ≤ (s.ctx i).timer then deadlineResync i s else s
  | .linkWait => if (s.ctx i).cfg.timeoutMs ≤ (s.ctx i).timer then attemptFail i .connectionError s else s
  | .draining => if (s.ctx i).cfg.timeoutMs ≤ (s.ctx i).timer then release i s else s
  | .idle => s
  | .sending => s
  | .decoding => s
  | .timedOut => s
  | .retryOrFail => s
  | .exceptionReceived => s

/-- One context in `on TICK` (R270). -/
def tickCtx (i : Nat) (s : State) : State :=
  if isTimed (s.ctx i).phase then
    tickDeadline i (s.modCtx i fun c => { c with timer := timerNext c.timer })
  else s

/-- `on TICK` (R270). -/
def onTick (s : State) : State := s.forCtx tickCtx

/-- One context in `on LINK_UP` (R275). -/
def linkUpCtx (i : Nat) (s : State) : State := if (s.ctx i).phase = .linkWait then sendAttempt i s else s

/-- `on LINK_UP` (R275). -/
def onLinkUp (s : State) : State := if s.link = .up then s else (s.setLink .up).forCtx linkUpCtx

/-- One context in `on LINK_DOWN` (R276). -/
def linkDownCtx (i : Nat) (s : State) : State :=
  match (s.ctx i).phase with
  | .awaitingResponse => attemptFail i .connectionLost s
  | .linkWait => attemptFail i .connectionError s
  | .resyncWait => sendAttempt i s
  | .draining => release i s
  | .idle => s
  | .sending => s
  | .decoding => s
  | .timedOut => s
  | .retryOrFail => s
  | .exceptionReceived => s
  | .backoff => s

/-- `on LINK_DOWN` (R276). -/
def onLinkDown (s : State) : State :=
  if s.link = .down then s
  else ((((s.setLink .down).bufClear).endDiscard).lineSilent).forCtx linkDownCtx

/-- EV_EXECUTE (R250). -/
def execEvExecute (handle : Handle) (req : Req) (cfg : ExecCfg) (s : State) : Answer :=
  runEvent (onExecute handle req cfg) s

/-- EV_CANCEL (R266). -/
def execEvCancel (handle : Handle) (s : State) : Answer := runEvent (onCancel handle) s

/-- EV_TICK (R270). -/
def execEvTick (s : State) : Answer := runEvent onTick s

/-- EV_LINK_UP (R275). -/
def execEvLinkUp (s : State) : Answer := runEvent onLinkUp s

/-- EV_LINK_DOWN (R276). -/
def execEvLinkDown (s : State) : Answer := runEvent onLinkDown s

/-- The reset input (R330, R331, R333): not an event of the step, it takes effect between two steps, puts every piece of
the block's state at its reset value and emits nothing. The events not yet delivered stay with their agents
(notes/assumptions/15.md, DESIGN CHOICE). -/
def State.resetInput (s : State) : State :=
  { State.resetOf ⟨s.kind, s.ctxs.length, s.handleW⟩ with inbox := s.inbox }

end Sys2Proof.Machine
end

