-- ==== Sys2Proof/Machine/Receive.lean ====
section
/-! DEFINITION. The receive side: the TCP and RTU framers, the silence and the resynchronisation (43_reassembly), with the
events RX_BYTE and RX_IDLE. -/

namespace Sys2Proof.Machine

/-! ### TCP -/

/-- One context in `tcp_abort!(bad)` (R220). -/
def tcpAbortCtx (bad : Tid) (i : Nat) (s : State) : State :=
  if (s.ctx i).phase = .awaitingResponse then
    if (s.ctx i).tid = bad then attemptFail i .malformedFrame s else attemptFail i .connectionLost s
  else s

/-- `tcp_abort!(bad)` (R220): the session is closed and every awaiting context's attempt fails. -/
def tcpAbort (bad : Tid) (s : State) : State :=
  (((s.emit .reqClose).setLink .down).bufClear).forCtx (tcpAbortCtx bad)

/-- `tcp_deliver!(f)` (R208) for a complete TCP frame. -/
def tcpDeliver (f : List Byte) (s : State) : State :=
  match s.lookup (rdBE16 f 0) with
  | none => s.emit (.note .strayFrame (some (rdBE16 f 0)))
  | some i =>
    match matchCheck (s.ctx i).req (byteAt f 6) (f.drop 7) with
    | .invalid => tcpAbort (rdBE16 f 0) s
    | .good body => completeGood i body s
    | .exc code => completeExc i code s

/-- The MBAP framer after a byte was appended (R206, R207). -/
def tcpCheck (s : State) : State :=
  if s.rxlen = 6 ∧ headerOk s.bufBytes = false then tcpAbort (rdBE16 s.bufBytes 0) s
  else if s.rxlen ≥ 6 ∧ s.rxlen = 6 + (rdBE16 s.bufBytes 4).toNat then tcpDeliver s.bufBytes s.bufClear
  else s

/-- `tcp_rx_byte!(b)` (R206). -/
def tcpRxByte (b : Byte) (s : State) : State := tcpCheck (s.bufAppend b)

/-! ### RTU -/

/-- `rtu_err!(err)` (R221). -/
def rtuErr (err : Status) (s : State) : State :=
  let s := (s.bufClear).startDiscard
  match (s.ctx 0).phase with
  | .awaitingResponse => attemptFail 0 err s
  | .draining => release 0 s
  | .idle => s
  | .sending => s
  | .decoding => s
  | .timedOut => s
  | .retryOrFail => s
  | .exceptionReceived => s
  | .backoff => s
  | .resyncWait => s
  | .linkWait => s

/-- A stray RTU frame (R213, R239). -/
def rtuStray (s : State) : State := s.emit (.note .strayFrame none)

/-- A good frame for the awaiting context 0 (R213). -/
def rtuAnswer (f : List Byte) (s : State) : State :=
  match matchCheck (s.ctx 0).req (byteAt f 0) (sliceBytes f 1 (f.length - 2)) with
  | .invalid => attemptFail 0 .malformedFrame s.startDiscard
  | .good body => completeGood 0 body s
  | .exc code => completeExc 0 code s

/-- `rtu_frame!(f)` (R213) for a frame whose CRC is good. -/
def rtuFrame (f : List Byte) (s : State) : State :=
  let s := s.bufClear
  match (s.ctx 0).phase with
  | .awaitingResponse => rtuAnswer f s
  | .draining => release 0 (rtuStray s)
  | .idle => rtuStray s
  | .sending => rtuStray s
  | .decoding => rtuStray s
  | .timedOut => rtuStray s
  | .retryOrFail => rtuStray s
  | .exceptionReceived => rtuStray s
  | .backoff => rtuStray s
  | .resyncWait => rtuStray s
  | .linkWait => rtuStray s

/-- The CRC check of a frame of at least 4 bytes, then the frame or the error (R211, R215). `crc_ok` is a
pure function (R17, R134). -/
def rtuChecked (f : List Byte) (s : State) : State :=
  if crcOk f then rtuFrame f s else rtuErr .checksumMismatch s

/-- `rtu_check!()` (R211). -/
def rtuCheck (s : State) : State :=
  match rtuExpectedLen s.bufBytes with
  | .bytes n => if s.rxlen = n then rtuChecked s.bufBytes s else s
  | .wait => s
  | .silence => s

/-- `rtu_rx_byte!(b)` (R210). -/
def rtuRxByte (b : Byte) (s : State) : State :=
  let s := s.lineBusy
  if s.rxDiscard = true then s
  else if s.rxlen = Config.rxbufCap then rtuErr .malformedFrame s
  else rtuCheck (s.bufAppend b)

/-- `silence_end!()` (R215). -/
def silenceEnd (s : State) : State :=
  match rtuExpectedLen s.bufBytes with
  | .silence => if s.rxlen < 4 then rtuErr .malformedFrame s else rtuChecked s.bufBytes s
  | .bytes _ => rtuErr .malformedFrame s
  | .wait => rtuErr .malformedFrame s

/-- RX_IDLE (R214) while the session is open and KIND = RTU. -/
def rtuIdle (s : State) : State :=
  if s.rxDiscard = true then
    let s := ((s.endDiscard).bufClear).lineSilent
    if (s.ctx 0).phase = .resyncWait then sendAttempt 0 s else s
  else
    let s := s.lineSilent
    if s.rxlen > 0 then silenceEnd s else s

/-! ### The events -/

/-- `on RX_BYTE(b)` (R205). -/
def onRxByte (b : Byte) (s : State) : State :=
  if s.link = .up then
    match s.kind with
    | .tcp => tcpRxByte b s
    | .rtu => rtuRxByte b s
  else s

/-- `on RX_IDLE` (R214). -/
def onRxIdle (s : State) : State := if s.link = .up ∧ s.kind = .rtu then rtuIdle s else s

/-- The append of RX_BYTE would be at an index the buffer does not have (R201's precondition; R204). -/
def State.appendOutOfRange (s : State) : Bool :=
  s.kind == .tcp && s.link == .up && decide (Config.rxbufCap ≤ s.rxlen)

/-- EV_RX_BYTE (R205). -/
def execEvRxByte (b : Byte) (s : State) : Answer :=
  if s.legal && s.appendOutOfRange then .fault .bufferIndexOutOfRange else runEvent (onRxByte b) s

/-- EV_RX_IDLE (R214). -/
def execEvRxIdle (s : State) : Answer := runEvent onRxIdle s

end Sys2Proof.Machine
end

