-- ==== Sys2Proof/Machine/Request.lean ====
section
/-! DEFINITION. The request rows as instructions: ENCODE of each function code (41_encode R150 to R158). The frame that
`encode(req, KIND, tid)` builds is returned to the caller; the function is pure and
writes no state of the block (00_scope R17). -/

namespace Sys2Proof.Machine

/-- `encode(req, KIND, tid)` as one operation of the block (R150): the frame is returned. -/
def runEncode (r : Req) (tid : Tid) (s : State) : Answer := runCodec (.frame (encodeFrame r s.kind tid)) s

/-- REQ_READ_COILS (R152). -/
def execReqReadCoils (tid : Tid) (unit : Byte) (addr qty : Word16) (s : State) : Answer :=
  runEncode ⟨0x01, unit, addr, qty, [], []⟩ tid s

/-- REQ_READ_HOLDING_REGISTERS (R153). -/
def execReqReadHoldingRegisters (tid : Tid) (unit : Byte) (addr qty : Word16) (s : State) : Answer :=
  runEncode ⟨0x03, unit, addr, qty, [], []⟩ tid s

/-- REQ_WRITE_SINGLE_REGISTER (R154): the quantity is always 1 and is not encoded. -/
def execReqWriteSingleRegister (tid : Tid) (unit : Byte) (addr value : Word16) (s : State) : Answer :=
  runEncode ⟨0x06, unit, addr, 1, [value], []⟩ tid s

/-- REQ_WRITE_MULTIPLE_COILS (R155). -/
def execReqWriteMultipleCoils (tid : Tid) (unit : Byte) (addr qty : Word16) (coils : List Bool) (s : State) : Answer :=
  runEncode ⟨0x0F, unit, addr, qty, [], coils⟩ tid s

/-- REQ_WRITE_MULTIPLE_REGISTERS (R156). -/
def execReqWriteMultipleRegisters (tid : Tid) (unit : Byte) (addr qty : Word16) (regs : List Word16) (s : State) :
    Answer :=
  runEncode ⟨0x10, unit, addr, qty, regs, []⟩ tid s

end Sys2Proof.Machine
end

