-- ==== Sys2Proof/Machine/Response.lean ====
section
/-! DEFINITION. The response rows as instructions: DECODE of each response PDU (42_decode R175 to R181). The decoded value,
or Invalid, is returned to the caller; match_check and the engine's reaction to a received frame are in Receive.lean. -/

namespace Sys2Proof.Machine

/-- RSP_READ_COILS (R177). -/
def execRspReadCoils (payload : List Byte) (s : State) : Answer :=
  runCodec (.pdu (decodeReadCoils (0x01 :: payload))) s

/-- RSP_READ_HOLDING_REGISTERS (R178). -/
def execRspReadHoldingRegisters (payload : List Byte) (s : State) : Answer :=
  runCodec (.pdu (decodeReadHoldingRegisters (0x03 :: payload))) s

/-- RSP_WRITE_SINGLE_REGISTER (R179). -/
def execRspWriteSingleRegister (payload : List Byte) (s : State) : Answer :=
  runCodec (.pdu (decodeWriteSingleRegister (0x06 :: payload))) s

/-- RSP_WRITE_MULTIPLE_COILS (R180). -/
def execRspWriteMultipleCoils (payload : List Byte) (s : State) : Answer :=
  runCodec (.pdu (decodeWriteMultipleCoils (0x0F :: payload))) s

/-- RSP_WRITE_MULTIPLE_REGISTERS (R181). -/
def execRspWriteMultipleRegisters (payload : List Byte) (s : State) : Answer :=
  runCodec (.pdu (decodeWriteMultipleRegisters (0x10 :: payload))) s

/-- RSP_EXCEPTION_81 (R176): an exception response to READ_COILS. -/
def execRspException81 (payload : List Byte) (s : State) : Answer :=
  runCodec (.pdu (decodeExc (0x81 :: payload))) s

/-- RSP_EXCEPTION_83 (R176): an exception response to READ_HOLDING_REGISTERS. -/
def execRspException83 (payload : List Byte) (s : State) : Answer :=
  runCodec (.pdu (decodeExc (0x83 :: payload))) s

/-- RSP_EXCEPTION_86 (R176): an exception response to WRITE_SINGLE_REGISTER. -/
def execRspException86 (payload : List Byte) (s : State) : Answer :=
  runCodec (.pdu (decodeExc (0x86 :: payload))) s

/-- RSP_EXCEPTION_8F (R176): an exception response to WRITE_MULTIPLE_COILS. -/
def execRspException8F (payload : List Byte) (s : State) : Answer :=
  runCodec (.pdu (decodeExc (0x8F :: payload))) s

/-- RSP_EXCEPTION_90 (R176): an exception response to WRITE_MULTIPLE_REGISTERS. -/
def execRspException90 (payload : List Byte) (s : State) : Answer :=
  runCodec (.pdu (decodeExc (0x90 :: payload))) s

/-- RSP_EXCEPTION (R176): an exception response with any other base function code. -/
def execRspException (fc : Byte) (payload : List Byte) (s : State) : Answer :=
  runCodec (.pdu (decodePdu (fc :: payload))) s

/-- RSP_UNRECOGNISED (R175, R118): a function code outside the five cannot be decoded. -/
def execRspUnrecognised (fc : Byte) (payload : List Byte) (s : State) : Answer :=
  runCodec (.pdu (decodePdu (fc :: payload))) s

end Sys2Proof.Machine
end

