-- ==== Sys2Proof/Machine/Dispatch.lean ====
section
/-! DEFINITION. The dispatch: one arm per instruction. -/

namespace Sys2Proof.Machine

/-- What an instruction does in a state. -/
def exec (i : Instr) (s : State) : Host.Outcome State Fault Refusal :=
  match i with
  | .reqReadCoils tid unit addr qty => Sys2Proof.Machine.execReqReadCoils tid unit addr qty s
  | .reqReadHoldingRegisters tid unit addr qty => Sys2Proof.Machine.execReqReadHoldingRegisters tid unit addr qty s
  | .reqWriteSingleRegister tid unit addr value => Sys2Proof.Machine.execReqWriteSingleRegister tid unit addr value s
  | .reqWriteMultipleCoils tid unit addr qty coils => Sys2Proof.Machine.execReqWriteMultipleCoils tid unit addr qty coils s
  | .reqWriteMultipleRegisters tid unit addr qty regs => Sys2Proof.Machine.execReqWriteMultipleRegisters tid unit addr qty regs s
  | .rspReadCoils payload => Sys2Proof.Machine.execRspReadCoils payload s
  | .rspReadHoldingRegisters payload => Sys2Proof.Machine.execRspReadHoldingRegisters payload s
  | .rspWriteSingleRegister payload => Sys2Proof.Machine.execRspWriteSingleRegister payload s
  | .rspWriteMultipleCoils payload => Sys2Proof.Machine.execRspWriteMultipleCoils payload s
  | .rspWriteMultipleRegisters payload => Sys2Proof.Machine.execRspWriteMultipleRegisters payload s
  | .rspException81 payload => Sys2Proof.Machine.execRspException81 payload s
  | .rspException83 payload => Sys2Proof.Machine.execRspException83 payload s
  | .rspException86 payload => Sys2Proof.Machine.execRspException86 payload s
  | .rspException8F payload => Sys2Proof.Machine.execRspException8F payload s
  | .rspException90 payload => Sys2Proof.Machine.execRspException90 payload s
  | .rspException fc payload => Sys2Proof.Machine.execRspException fc payload s
  | .rspUnrecognised fc payload => Sys2Proof.Machine.execRspUnrecognised fc payload s
  | .evExecute handle req cfg => Sys2Proof.Machine.execEvExecute handle req cfg s
  | .evCancel handle => Sys2Proof.Machine.execEvCancel handle s
  | .evRxByte b => Sys2Proof.Machine.execEvRxByte b s
  | .evRxIdle => Sys2Proof.Machine.execEvRxIdle s
  | .evTick => Sys2Proof.Machine.execEvTick s
  | .evLinkUp => Sys2Proof.Machine.execEvLinkUp s
  | .evLinkDown => Sys2Proof.Machine.execEvLinkDown s
  | .crcInit => Sys2Proof.Machine.execCrcInit s
  | .crcUpdate b => Sys2Proof.Machine.execCrcUpdate b s
  | .crcRead => Sys2Proof.Machine.execCrcRead s

end Sys2Proof.Machine
end

