-- ==== Sys2Proof/Machine/Step.lean ====
section
/-! DEFINITION. One step: the next port word is taken and its instruction run (00_scope R20). -/

namespace Sys2Proof.Machine

/-- One step. The next port word in delivery order is taken (R81), decoded at the instance's HANDLE_W and executed; a word that carries no instruction
is refused (R119: "no step"); without an event the block holds its state (R321). -/
def step (s : State) : Host.Outcome State Fault Refusal :=
  match s.inbox with
  | [] => .next s
  | w :: rest =>
    match decode s.handleW w with
    | .error e => .refused (.noInstruction e)
    | .ok i => exec i { s with inbox := rest }

/-- The state with a word of the opcode table delivered ahead of every other (notes/assumptions/9.md). -/
def State.withFetchWord (s : State) (nbits w : Nat) : State :=
  { s with inbox := tablePortWord s.handleW (tableSpace s.handleW nbits w) nbits w :: s.inbox }

end Sys2Proof.Machine
end

