-- ==== Sys2Proof/Safety.lean ====
section
/-! DEFINITION. What the statements about the machine are said in: the block's own state, runs of instructions and their
outputs, the invariants of 10_state R47 and of the deadlines, and what the loss of a session makes of a context. -/

namespace Sys2Proof.Machine

/-! ### The block's own state, and runs -/

/-- The block's state, exactly as R30 lists it: every field of `State` but the parameter HANDLE_W and
the model's own port fields. -/
structure Block where
  /-- KIND (R31). -/
  kind : Kind
  /-- `link` (R32). -/
  link : Link
  /-- `tid_ctr` (R33). -/
  tidCtr : Tid
  /-- `rxbuf` (R34). -/
  rxbuf : Memory
  /-- `rxlen` (R34). -/
  rxlen : Nat
  /-- `rx_discard` (R35). -/
  rxDiscard : Bool
  /-- `line_quiet` (R36). -/
  lineQuiet : Bool
  /-- `crc` (R37). -/
  crc : Word16
  /-- `ctx` (R40). -/
  ctxs : List Ctx
  deriving DecidableEq, Repr

/-- The block's own part of a state. -/
def State.block (s : State) : Block :=
  ⟨s.kind, s.link, s.tidCtr, s.rxbuf, s.rxlen, s.rxDiscard, s.lineQuiet, s.crc, s.ctxs⟩

/-- Instructions executed one after another: the output list of each step and the last state, when none stops. -/
def runInstrs : List Instr → State → Option (List (List Output) × State)
  | [], s => some ([], s)
  | i :: is, s =>
    match exec i s with
    | .next t => (runInstrs is t).map fun r => (t.out :: r.1, r.2)
    | .fault _ => none
    | .refused _ => none

/-- Is an output a TX_FRAME? -/
def Output.isTxFrame : Output → Bool
  | .txFrame _ => true
  | .reqOpen => false
  | .reqClose => false
  | .result _ => false
  | .note _ _ => false

/-- Is an output a RESULT of the handle h? -/
def Output.isResultOf (h : Handle) : Output → Bool
  | .txFrame _ => false
  | .reqOpen => false
  | .reqClose => false
  | .result r => r.handle == h
  | .note _ _ => false

/-- How many contexts hold an active execute with the handle h (R251). -/
def State.activeCount (h : Handle) (s : State) : Nat :=
  s.ctxs.countP fun c => isActive c.phase && c.handle == h

/-! ### The invariants between steps (R47) -/

/-- One context's own part of R47: the transaction is Pending exactly while the response is awaited (items 1 and R43). -/
abbrev Ctx.TxnOk (c : Ctx) : Prop :=
  (c.txn = .none ∨ c.txn = .pending) ∧ (c.txn = .pending ↔ c.phase = .awaitingResponse)

/-- A context against the session and the resync (R47 items 2 to 4; Draining and ResyncWait are RTU only, R44). -/
abbrev State.LinkOk (s : State) (c : Ctx) : Prop :=
  (c.phase = .awaitingResponse ∨ c.phase = .draining → s.link = .up) ∧
  (c.phase = .linkWait → s.link = .opening) ∧
  (c.phase = .resyncWait → s.kind = .rtu ∧ s.rxDiscard = true) ∧
  (c.phase = .draining → s.kind = .rtu) ∧
  (s.kind = .rtu ∧ (c.phase = .awaitingResponse ∨ c.phase = .draining) → s.rxDiscard = false)

/-- What a context latched passed validation (R140, R250, R253). -/
abbrev Ctx.LatchedOk (c : Ctx) : Prop :=
  (isActive c.phase = true → validate c.req c.cfg = true) ∧ (c.phase = .draining → cfgOk c.cfg = true)

/-- Two contexts of one table (R47 items 5 and 7): no id Pending twice on TCP, no handle active twice. -/
abbrev Ctx.Apart (k : Kind) (c d : Ctx) : Prop :=
  ¬ (k = .tcp ∧ c.txn = .pending ∧ d.txn = .pending ∧ c.tid = d.tid) ∧
  ¬ (isActive c.phase = true ∧ isActive d.phase = true ∧ c.handle = d.handle)

/-- Is the frame's inferred length, when known, more than n bytes (R211)? -/
def ExpectedLen.exceeds (e : ExpectedLen) (n : Nat) : Bool :=
  match e with
  | .wait => true
  | .bytes m => decide (n < m)
  | .silence => true

/-- The receive side (R34; R47 items 8 and 9; R35, R36, R211): the buffer is in canonical form within its capacity, no
complete frame rests in it, and a resync runs only on an open RTU line that is not quiet. -/
abbrev State.ReceiveOk (s : State) : Prop :=
  s.rxbuf.wf = true ∧
  (∀ p ∈ s.rxbuf, p.1 < Config.rxbufCap) ∧
  s.rxlen ≤ Config.rxbufCap ∧
  (s.kind = .tcp ∧ 6 ≤ s.rxlen →
    headerOk s.bufBytes = true ∧ s.rxlen < 6 + (rdBE16 s.bufBytes 4).toNat) ∧
  (s.kind = .rtu → (rtuExpectedLen s.bufBytes).exceeds s.rxlen = true) ∧
  (s.kind = .tcp → s.rxDiscard = false) ∧
  (s.rxDiscard = true → s.link = .up ∧ s.lineQuiet = false)

/-- The invariant of the machine between steps (R45, R47). -/
abbrev State.Inv (s : State) : Prop :=
  s.legal = true ∧
  (∀ c ∈ s.ctxs, c.TxnOk ∧ s.LinkOk c ∧ c.LatchedOk) ∧
  s.ctxs.Pairwise (Ctx.Apart s.kind) ∧
  s.ReceiveOk

/-- The limit a timed phase's timer is compared with (R270, R316). -/
def Ctx.limit (c : Ctx) : Word32 := if c.phase = .backoff then c.cfg.retryBackoffMs else c.cfg.timeoutMs

/-- A context's timer is below its limit in a timed phase, and its retries are within the count allowed (R262, R270). -/
abbrev Ctx.DeadlineOk (c : Ctx) : Prop :=
  (isTimed c.phase = true → c.timer < c.limit) ∧ (isActive c.phase = true → c.attempt ≤ c.cfg.maxRetries)

/-- No deadline is overdue between steps: each fires on the TICK that reaches it (R316). -/
abbrev State.DeadlinesAhead (s : State) : Prop := ∀ c ∈ s.ctxs, c.DeadlineOk

/-- Does a timed context reach its limit on the next TICK (R270)? -/
def Ctx.dueOnTick (c : Ctx) : Bool := isTimed c.phase && decide (c.limit.toNat ≤ c.timer.toNat + 1)

/-- Does an output carry only a handle that hw bits hold (R109)? -/
def Output.handleFits (hw : Nat) : Output → Bool
  | .txFrame _ => true
  | .reqOpen => true
  | .reqClose => true
  | .result r => handleOk hw r.handle
  | .note _ _ => true

/-- Every handle held or just returned is HANDLE_W bits (R11, R40, R102, R109). -/
abbrev State.HandlesFit (s : State) : Prop :=
  (∀ c ∈ s.ctxs, c.handle < 2 ^ s.handleW) ∧ (∀ o ∈ s.out, o.handleFits s.handleW = true)

/-! ### The failure of an attempt whose retry cannot be sent at once -/

/-- `ctx[i]` after its execute was accepted (R253), its transaction id kept: the state of `accept!` but for the phase. -/
def acceptedCtx (c : Ctx) (h : Handle) (r : Req) (cfg : ExecCfg) (p : Phase) : Ctx :=
  { phase := p, handle := h, req := r, cfg := cfg, attempt := 0, tid := c.tid, txn := .none, timer := 0, lastErr := .ok }

/-- A released context (R264): req, cfg, attempt, tid and last_err keep their values. -/
def releasedCtx (c : Ctx) : Ctx := { c with phase := .idle, handle := 0, txn := .none, timer := 0 }

/-- Has a context a retry left (R262)? -/
def Ctx.hasRetry (c : Ctx) : Bool := decide (c.attempt < c.cfg.maxRetries)

/-- Has a context a retry left that is sent without a backoff (R262)? -/
def Ctx.retriesNow (c : Ctx) : Bool := c.hasRetry && c.cfg.retryBackoffMs == 0

/-- A context after `attempt_fail!(i, err)` (R262) where a retry without backoff rests in phase p (LinkWait when the
session is not open, ResyncWait during a resync, R261). -/
def failedCtx (err : Status) (p : Phase) (c : Ctx) : Ctx :=
  if c.hasRetry then
    { c with
      lastErr := err, txn := .none, attempt := c.attempt + 1, timer := 0
      phase := if c.cfg.retryBackoffMs = 0 then p else .backoff }
  else { releasedCtx c with lastErr := err }

/-- The RESULT that `attempt_fail!(i, err)` emits, if no retry is left (R262). -/
def failedResult (err : Status) (c : Ctx) : Option Output :=
  if c.hasRetry then none else some (plainResult c.handle err 0)

/-! ### The loss of a session -/

/-- What a loop over the contexts in ascending index emits (R20, R309) when the contexts that `reopens` names would open a
closed session and the others emit their result, if any: REQ_OPEN at the turn of the first that re-opens it, which finds
the session closed, and at no later turn, which finds it opening (R261). A context that re-opens emits no result. -/
def turnOutputs (reopens : Ctx → Bool) (result : Ctx → Option Output) : List Ctx → List Output
  | [] => []
  | c :: cs =>
    if reopens c = true then .reqOpen :: cs.filterMap result
    else (result c).toList ++ turnOutputs reopens result cs

/-- A context after LINK_DOWN (R276). -/
def lossCtx (c : Ctx) : Ctx :=
  if c.phase = .awaitingResponse then failedCtx .connectionLost .linkWait c
  else if c.phase = .linkWait then failedCtx .connectionError .linkWait c
  else if c.phase = .resyncWait then { c with phase := .linkWait, timer := 0 }
  else if c.phase = .draining then releasedCtx c
  else c

/-- Does a context re-open the session in the step of a LINK_DOWN (R276, R261)? -/
def lossReopens (c : Ctx) : Bool :=
  ((c.phase == .awaitingResponse || c.phase == .linkWait) && c.retriesNow) || c.phase == .resyncWait

/-- The RESULT a context emits on LINK_DOWN, if any (R276, R262). -/
def lossResult (c : Ctx) : Option Output :=
  if c.phase = .awaitingResponse then failedResult .connectionLost c
  else if c.phase = .linkWait then failedResult .connectionError c
  else none

/-- The status with which a TCP abort that blames id `bad` fails an awaiting context (R220). -/
def abortStatus (bad : Tid) (c : Ctx) : Status := if c.tid = bad then .malformedFrame else .connectionLost

/-- A context after `tcp_abort!(bad)` (R220). -/
def abortCtx (bad : Tid) (c : Ctx) : Ctx :=
  if c.phase = .awaitingResponse then failedCtx (abortStatus bad c) .linkWait c else c

/-- Does a context re-open the session in the step of a TCP abort (R220, R261)? -/
def abortReopens (c : Ctx) : Bool := c.phase == .awaitingResponse && c.retriesNow

/-- The RESULT a context emits on a TCP abort, if any (R220, R262). -/
def abortResult (bad : Tid) (c : Ctx) : Option Output :=
  if c.phase = .awaitingResponse then failedResult (abortStatus bad c) c else none

/-! ### The effect of an attempt that is sent -/

/-- A context whose attempt was sent with id t (R261, R233). -/
def sentCtx (t : Tid) (c : Ctx) : Ctx := { c with phase := .awaitingResponse, timer := 0, txn := .pending, tid := t }

/-- A context whose attempt failed with err and whose retry was sent at once with id t (R262, R261). -/
def resentCtx (err : Status) (t : Tid) (c : Ctx) : Ctx :=
  sentCtx t { c with lastErr := err, attempt := c.attempt + 1 }

/-- A context after `attempt_fail!(i, err)` (R262) when the line can be sent on: a retry without backoff is sent, with
id t. -/
def failedOpenCtx (err : Status) (t : Tid) (c : Ctx) : Ctx :=
  if c.retriesNow then resentCtx err t c else failedCtx err .backoff c

/-- An RTU context after `rtu_err!(err)` on a line that is not quiet (R221): a retry without backoff waits for the
resync. -/
def lineErrCtx (err : Status) (c : Ctx) : Ctx :=
  if c.phase = .awaitingResponse then failedCtx err .resyncWait c
  else if c.phase = .draining then releasedCtx c
  else c

/-- What `rtu_err!(err)` emits on a line that is not quiet (R221, R262). -/
def lineErrOut (err : Status) (c : Ctx) : List Output :=
  if c.phase = .awaitingResponse then (failedResult err c).toList else []

/-- An RTU context after `rtu_err!(err)` on a quiet line (R221): no resync follows, so a retry without backoff is sent. -/
def quietErrCtx (err : Status) (c : Ctx) : Ctx :=
  if c.phase = .awaitingResponse then failedOpenCtx err 0 c
  else if c.phase = .draining then releasedCtx c
  else c

/-- What `rtu_err!(err)` emits on a quiet line (R221, R262, R261). -/
def quietErrOut (err : Status) (c : Ctx) : List Output :=
  if c.phase = .awaitingResponse then
    if c.retriesNow then [.txFrame (encodeFrame c.req .rtu 0)] else (failedResult err c).toList
  else []

/-- An RTU context after a stray frame (R213): it ends a drain and touches no other context. -/
def strayCtx (c : Ctx) : Ctx := if c.phase = .draining then releasedCtx c else c

/-- The bytes under reassembly once the byte b is appended (R201). -/
def State.received (s : State) (b : Byte) : List Byte := s.bufBytes ++ [b]

/-- The indices of the contexts in LinkWait, ascending. -/
def State.waiting (s : State) : List Nat :=
  (List.range s.ctxs.length).filter fun i => (s.ctx i).phase == .linkWait

end Sys2Proof.Machine
end

