-- ==== Sys2Proof/Certificates/Slice0/Obligations.lean ====
section
/-! DEFINITION. The statements for the provers. `t.out` is the output list of the step (30_encoding R108) and `t.block` is
the block's own state, exactly as 10_state R30 lists it; `handleW` is the parameter HANDLE_W, which no instruction writes;
`out`, `codec` and `inbox` are the model's own port fields (notes/assumptions/4.md to 6.md). -/

section

open Sys2Proof Sys2Proof.Machine

/-- Decoding the port word of any well-formed instruction gives the instruction back. From: 00_scope R11, 30_encoding R95,
30_encoding R96, 30_encoding R97, 30_encoding R98, 30_encoding R99, 30_encoding R100, 30_encoding R102, 30_encoding
R111, 40_crc R130. Derived. For every width of the handles and every well-formed instruction of all 27 rows, with
every operand at every value its encoding admits, decode of encode is that instruction. The PDU layouts are the
spec's; the order of the envelope operands and of an EXECUTE payload is the model's (notes/assumptions/7.md). -/
def Obligations.DecodeEncode : Prop :=
  ∀ (hw : Nat) (i : Instr), i.WellFormed hw = true → decode hw (encode hw i) = .ok i

/-- Words written out from the encodings of each code space decode to their instructions. From: 41_encode R152, 42_decode
R180, 42_decode R176, 30_encoding R100, 40_crc R130. Derived. At every width of the handles, the request PDU 01 00 13
00 13, the response PDUs 0F 00 13 00 0A and 83 02, the event types 0x3 to 0x7 and the CRC operation codes decode to
the instructions they stand for. The unit id and transaction id after the request PDU are the model's order
(notes/assumptions/7.md). -/
def Obligations.WrittenWordsDecode : Prop :=
  ∀ hw : Nat,
    decode hw ⟨.request, [0x01, 0x00, 0x13, 0x00, 0x13, 0x01, 0x12, 0x34]⟩ =
      .ok (.reqReadCoils 0x1234 0x01 0x0013 0x0013) ∧
    decode hw ⟨.response, [0x0F, 0x00, 0x13, 0x00, 0x0A]⟩ = .ok (.rspWriteMultipleCoils [0x00, 0x13, 0x00, 0x0A]) ∧
    decode hw ⟨.response, [0x83, 0x02]⟩ = .ok (.rspException83 [0x02]) ∧
    decode hw ⟨.event, [0x03, 0xFF]⟩ = .ok (.evRxByte 0xFF) ∧
    decode hw ⟨.event, [0x04]⟩ = .ok .evRxIdle ∧
    decode hw ⟨.event, [0x05]⟩ = .ok .evTick ∧
    decode hw ⟨.event, [0x06]⟩ = .ok .evLinkUp ∧
    decode hw ⟨.event, [0x07]⟩ = .ok .evLinkDown ∧
    decode hw ⟨.crcOp, [0x00]⟩ = .ok .crcInit ∧
    decode hw ⟨.crcOp, [0x01, 0x55]⟩ = .ok (.crcUpdate 0x55) ∧
    decode hw ⟨.crcOp, [0x02]⟩ = .ok .crcRead

/-- Reserved event types and the reserved CRC code are refused by name, and a refused word takes no step. From:
30_encoding R119, 40_crc R130. Derived. An event word of type 0x0 or of a type from 0x8 up and a CRC word of code 0b11
up decode to the named error, whatever follows the code; a step whose next word decodes to an error is refused with
that error. Codes above the 4 and the 2 bits of the spec are refused by the model's choice (notes/assumptions/7.md). -/
def Obligations.ReservedWordsRefused : Prop :=
  (∀ (hw : Nat) (code : Byte) (tail : List Byte), code.toNat = 0 ∨ 8 ≤ code.toNat →
    decode hw ⟨.event, code :: tail⟩ = .error (.reservedEventType code)) ∧
  (∀ (hw : Nat) (code : Byte) (tail : List Byte), 3 ≤ code.toNat →
    decode hw ⟨.crcOp, code :: tail⟩ = .error (.reservedCrcOp code)) ∧
  (∀ (s : State) (w : PortWord) (rest : List PortWord) (e : DecodeError), s.inbox = w :: rest →
    decode s.handleW w = .error e → step s = .refused (.noInstruction e))

/-- A step takes the next delivered word and runs the instruction it decodes to; without a word it holds the state. From:
00_scope R20, 20_memory R81, 30_encoding R100, 60_exceptions R321. Derived. When the next word of the inbox decodes,
at the HANDLE_W of the instance, to i, the step is exec of i at the state with that word taken. With an empty inbox
the step answers the same state. decodeTableWord reads a table word at the HANDLE_W of State.reset. A table word that
decodes at the HANDLE_W of the instance and is delivered ahead of every other is run by the very next step. The inbox
is the model's own field (notes/assumptions/4.md, 9.md). -/
def Obligations.StepRunsDecoded : Prop :=
  (∀ (s : State) (w : PortWord) (rest : List PortWord) (i : Instr), s.inbox = w :: rest → decode s.handleW w = .ok i →
    step s = exec i { s with inbox := rest }) ∧
  (∀ s : State, s.inbox = [] → step s = .next s) ∧
  (∀ (s : State) (nbits w : Nat) (i : Instr), decodeTableWordAt s.handleW nbits w = some i →
    step (s.withFetchWord nbits w) = exec i s) ∧
  (∀ nbits w : Nat, decodeTableWord nbits w = decodeTableWordAt State.reset.handleW nbits w)

/-- A valid request's frame decodes to its unit and PDU, and the request is recovered from the PDU. Rules: R162. For every
request that validation accepts and every transaction id, the TCP frame decodes to the id, the unit and the PDU, the
RTU frame decodes to no id, the unit and the PDU, request_of_pdu gives the request back, and two valid requests to one
unit with one PDU are the same request. -/
def Obligations.FrameRoundTrip : Prop :=
  ∀ (r : Req) (c : ExecCfg) (tid : Tid), validate r c = true →
    decodeFrame (encodeFrame r .tcp tid) .tcp = .ok ⟨some tid, r.unit, pduOf r⟩ ∧
    decodeFrame (encodeFrame r .rtu tid) .rtu = .ok ⟨none, r.unit, pduOf r⟩ ∧
    requestOfPdu r.unit (pduOf r) = r ∧
    (∀ (r' : Req) (c' : ExecCfg), validate r' c' = true → r'.unit = r.unit → pduOf r' = pduOf r → r' = r)

/-- The frame of a valid request, byte by byte, for each function code in each envelope. Rules: R150, R151, R152, R153,
R154, R155, R156, R157, R158. For a request that validation accepts, the PDU is the function code, the address and the
quantity (the register value for 0x06), and for 0x0F and 0x10 the byte count and the packed values; the TCP frame is
the id, protocol id 0, the length 1 + len(PDU), the unit and the PDU; the RTU frame is the unit, the PDU and the CRC,
low byte first. -/
def Obligations.EncodeFrames : Prop :=
  ∀ (r : Req) (c : ExecCfg) (tid : Tid), validate r c = true →
    (r.fc = 0x01 → pduOf r = [0x01] ++ be16 r.addr ++ be16 r.qty) ∧
    (r.fc = 0x03 → pduOf r = [0x03] ++ be16 r.addr ++ be16 r.qty) ∧
    (r.fc = 0x06 → pduOf r = [0x06] ++ be16 r.addr ++ be16 (r.regs.getD 0 0)) ∧
    (r.fc = 0x0F → pduOf r = [0x0F] ++ be16 r.addr ++ be16 r.qty ++ [BitVec.ofNat 8 ((r.qty.toNat + 7) / 8)] ++
      packCoils r.coils) ∧
    (r.fc = 0x10 → pduOf r = [0x10] ++ be16 r.addr ++ be16 r.qty ++ [BitVec.ofNat 8 (2 * r.qty.toNat)] ++
      packRegs r.regs) ∧
    encodeFrame r .tcp tid =
      be16 tid ++ [0x00, 0x00] ++ be16 (BitVec.ofNat 16 (1 + (pduOf r).length)) ++ [r.unit] ++ pduOf r ∧
    encodeFrame r .rtu tid =
      [r.unit] ++ pduOf r ++
        [(crc16 (r.unit :: pduOf r)).extractLsb' 0 8, (crc16 (r.unit :: pduOf r)).extractLsb' 8 8]

/-- Encoded lengths by function code, and no built frame's length field wraps. Rules: R159. For a valid request the PDU is
5 bytes for 0x01, 0x03 and 0x06, 6 + ceil(qty/8) for 0x0F and 6 + 2*qty for 0x10; the RTU frame is 3 bytes longer and
the TCP frame 7, with a length field of the PDU's length plus 1. -/
def Obligations.EncodedLengths : Prop :=
  ∀ (r : Req) (c : ExecCfg) (tid : Tid), validate r c = true →
    (pduOf r).length =
      (if r.fc = 0x0F then 6 + (r.qty.toNat + 7) / 8 else if r.fc = 0x10 then 6 + 2 * r.qty.toNat else 5) ∧
    (encodeFrame r .rtu tid).length = (pduOf r).length + 3 ∧
    (encodeFrame r .tcp tid).length = (pduOf r).length + 7 ∧
    (rdBE16 (encodeFrame r .tcp tid) 4).toNat = (pduOf r).length + 1

/-- Coils are packed eight a byte, least significant first with zero padding; registers two bytes each, high byte first.
Rules: R160, R161. pack_coils of n coils is ceil(n/8) bytes, coil k is bit k mod 8 of byte k div 8 and every bit past
the last coil is 0; pack_regs of n registers is 2n bytes, register k big-endian at bytes 2k and 2k + 1; unpacking
gives the lists back. -/
def Obligations.PackedValues : Prop :=
  (∀ c : List Bool, (packCoils c).length = (c.length + 7) / 8 ∧
    (∀ k, k < 8 * (packCoils c).length → (byteAt (packCoils c) (k / 8)).getLsbD (k % 8) = c.getD k false) ∧
    unpackCoils c.length (packCoils c) = c) ∧
  (∀ r : List Word16, (packRegs r).length = 2 * r.length ∧
    (∀ k, k < r.length → [byteAt (packRegs r) (2 * k), byteAt (packRegs r) (2 * k + 1)] = be16 (r.getD k 0)) ∧
    unpackRegs r.length (packRegs r) = r)

/-- Validation accepts exactly the five function codes within their quantity, address, list and deadline limits. Rules:
R140, R141, R142, R144, R145, R146. A request and configuration pass validation exactly when the deadline is at least
1 and the request is one of the five rows of the limit and payload tables; every other function code is refused, and a
list longer than 125 registers or 2000 coils is refused whatever the function code. -/
def Obligations.ValidationTable : Prop :=
  (∀ (r : Req) (c : ExecCfg), validate r c = true ↔
    1 ≤ c.timeoutMs.toNat ∧
    ((r.fc = 0x01 ∧ 1 ≤ r.qty.toNat ∧ r.qty.toNat ≤ 2000 ∧ r.addr.toNat + r.qty.toNat ≤ 65536 ∧
        r.regs = [] ∧ r.coils = []) ∨
     (r.fc = 0x03 ∧ 1 ≤ r.qty.toNat ∧ r.qty.toNat ≤ 125 ∧ r.addr.toNat + r.qty.toNat ≤ 65536 ∧
        r.regs = [] ∧ r.coils = []) ∨
     (r.fc = 0x06 ∧ r.qty = 1 ∧ r.regs.length = 1 ∧ r.coils = []) ∨
     (r.fc = 0x0F ∧ 1 ≤ r.qty.toNat ∧ r.qty.toNat ≤ 2000 ∧ r.addr.toNat + r.qty.toNat ≤ 65536 ∧
        r.regs = [] ∧ r.coils.length = r.qty.toNat) ∨
     (r.fc = 0x10 ∧ 1 ≤ r.qty.toNat ∧ r.qty.toNat ≤ 125 ∧ r.addr.toNat + r.qty.toNat ≤ 65536 ∧
        r.regs.length = r.qty.toNat ∧ r.coils = []))) ∧
  (∀ (r : Req) (c : ExecCfg), 125 < r.regs.length ∨ 2000 < r.coils.length → validate r c = false)

/-- A byte sequence followed by its own CRC has CRC 0, so every built RTU frame has residue 0. Rules: R136. For every byte
sequence the CRC of the sequence followed by its CRC, low byte first, is 0x0000; so the CRC over all bytes of an RTU
frame the encoder builds is 0. -/
def Obligations.CrcResidue : Prop :=
  (∀ l : List Byte, crc16 (l ++ le16 (crc16 l)) = 0x0000) ∧
  (∀ (unit : Byte) (p : List Byte), crc16 (encodeRtu unit p) = 0x0000)

/-- CRC_INIT sets crc to 0xFFFF; CRC_UPDATE XORs its byte in and takes eight right-shift steps with 0xA001. From: 40_crc
R130, 40_crc R131, 40_crc R132. Derived. In every state CRC_INIT (code 0b00) completes with crc = 0xFFFF, and
CRC_UPDATE(b) (code 0b01) completes with crc replaced by eight steps of the conditional shift applied to crc XOR
zext_16(b); every other piece of the block's state is unchanged and nothing is emitted. That the operations are steps
of their own (notes/assumptions/6.md) and that the operand b is the byte after the operation code
(notes/assumptions/7.md) are the model's choices. -/
def Obligations.CrcInitAndUpdate : Prop :=
  (∀ hw : Nat, decode hw ⟨.crcOp, [0b00]⟩ = .ok .crcInit) ∧
  (∀ s : State, ∃ t, exec .crcInit s = .next t ∧ t.block = { s.block with crc := 0xFFFF } ∧ t.out = []) ∧
  (∀ (hw : Nat) (b : Byte), decode hw ⟨.crcOp, [0b01, b]⟩ = .ok (.crcUpdate b)) ∧
  (∀ (s : State) (b : Byte), ∃ t, exec (.crcUpdate b) s = .next t ∧
    t.block = { s.block with
      crc := Nat.repeat (fun c : Word16 => if c &&& 1 = 1 then (c >>> 1) ^^^ 0xA001 else c >>> 1) 8
        (s.crc ^^^ BitVec.ofNat 16 b.toNat) } ∧
    t.out = [])

/-- CRC_READ returns the register unchanged; crc16 is what it returns after CRC_INIT and one CRC_UPDATE per byte. From:
40_crc R130, 40_crc R133. Derived. In every state CRC_READ, whose operation code is 0b10, completes and returns crc
with the block's state unchanged and no output. After CRC_INIT, CRC_UPDATE of each byte in order and CRC_READ, from
any state, the returned value is crc16 of the bytes; of no bytes it is 0xFFFF; an RTU frame ends in the crc16 of its
unit id and PDU, low byte first. That the operations are steps of their own and that the returned value stands in the
codec field are the model's choices (notes/assumptions/6.md). -/
def Obligations.CrcReadEffect : Prop :=
  (∀ hw : Nat, decode hw ⟨.crcOp, [0b10]⟩ = .ok .crcRead) ∧
  (∀ s : State, ∃ t, exec .crcRead s = .next t ∧ t.codec = .crc s.crc ∧ t.block = s.block ∧ t.out = []) ∧
  (∀ (s : State) (l : List Byte), ∃ outs t,
    runInstrs ([.crcInit] ++ l.map .crcUpdate ++ [.crcRead]) s = some (outs, t) ∧ t.codec = .crc (crc16 l)) ∧
  crc16 [] = 0xFFFF ∧
  (∀ (unit : Byte) (p : List Byte), encodeRtu unit p = ([unit] ++ p) ++ le16 (crc16 ([unit] ++ p)))

/-- On TCP each request row returns its frame, byte by byte, and writes no state of the block. From: 41_encode R150,
41_encode R152, 41_encode R153, 41_encode R154, 41_encode R155, 41_encode R156, 41_encode R158, 00_scope R17. Derived.
For an instance of kind TCP every well-formed request row completes and returns id, protocol id 0, length, unit and
PDU; the block's state is unchanged and nothing is emitted. That a request row is a step of its own that returns the
frame is the model's choice (notes/assumptions/6.md). -/
def Obligations.RequestRowsTcp : Prop :=
  ∀ (s : State) (tid : Tid) (unit : Byte) (addr qty value : Word16) (coils : List Bool) (regs : List Word16),
    s.kind = .tcp →
    (Instr.WellFormed s.handleW (.reqReadCoils tid unit addr qty) = true →
      ∃ t, exec (.reqReadCoils tid unit addr qty) s = .next t ∧ t.block = s.block ∧ t.out = [] ∧
        t.codec = .frame (be16 tid ++ [0x00, 0x00, 0x00, 0x06, unit, 0x01] ++ be16 addr ++ be16 qty)) ∧
    (Instr.WellFormed s.handleW (.reqReadHoldingRegisters tid unit addr qty) = true →
      ∃ t, exec (.reqReadHoldingRegisters tid unit addr qty) s = .next t ∧ t.block = s.block ∧ t.out = [] ∧
        t.codec = .frame (be16 tid ++ [0x00, 0x00, 0x00, 0x06, unit, 0x03] ++ be16 addr ++ be16 qty)) ∧
    (∃ t, exec (.reqWriteSingleRegister tid unit addr value) s = .next t ∧ t.block = s.block ∧ t.out = [] ∧
      t.codec = .frame (be16 tid ++ [0x00, 0x00, 0x00, 0x06, unit, 0x06] ++ be16 addr ++ be16 value)) ∧
    (Instr.WellFormed s.handleW (.reqWriteMultipleCoils tid unit addr qty coils) = true →
      ∃ t, exec (.reqWriteMultipleCoils tid unit addr qty coils) s = .next t ∧ t.block = s.block ∧ t.out = [] ∧
        t.codec = .frame (be16 tid ++ [0x00, 0x00] ++ be16 (BitVec.ofNat 16 (7 + (qty.toNat + 7) / 8)) ++
          [unit, 0x0F] ++ be16 addr ++ be16 qty ++ [BitVec.ofNat 8 ((qty.toNat + 7) / 8)] ++ packCoils coils)) ∧
    (Instr.WellFormed s.handleW (.reqWriteMultipleRegisters tid unit addr qty regs) = true →
      ∃ t, exec (.reqWriteMultipleRegisters tid unit addr qty regs) s = .next t ∧ t.block = s.block ∧ t.out = [] ∧
        t.codec = .frame (be16 tid ++ [0x00, 0x00] ++ be16 (BitVec.ofNat 16 (7 + 2 * qty.toNat)) ++
          [unit, 0x10] ++ be16 addr ++ be16 qty ++ [BitVec.ofNat 8 (2 * qty.toNat)] ++ packRegs regs))

/-- On RTU each request row returns unit, PDU and CRC, byte by byte, and writes no state of the block. From: 41_encode
R150, 41_encode R152, 41_encode R153, 41_encode R154, 41_encode R155, 41_encode R156, 41_encode R157, 40_crc R133,
40_crc R135, 00_scope R17. Derived. For an instance of kind RTU every well-formed request row completes and returns
the unit, the PDU and the CRC of both, low byte first; the block's state, crc among it, is unchanged and nothing is
emitted. That a request row is a step of its own that returns the frame is the model's choice
(notes/assumptions/6.md). -/
def Obligations.RequestRowsRtu : Prop :=
  ∀ (s : State) (tid : Tid) (unit : Byte) (i : Instr) (p : List Byte), s.kind = .rtu → i.WellFormed s.handleW = true →
    ((∃ addr qty, i = .reqReadCoils tid unit addr qty ∧ p = [0x01] ++ be16 addr ++ be16 qty) ∨
     (∃ addr qty, i = .reqReadHoldingRegisters tid unit addr qty ∧ p = [0x03] ++ be16 addr ++ be16 qty) ∨
     (∃ addr value, i = .reqWriteSingleRegister tid unit addr value ∧ p = [0x06] ++ be16 addr ++ be16 value) ∨
     (∃ addr qty coils, i = .reqWriteMultipleCoils tid unit addr qty coils ∧
       p = [0x0F] ++ be16 addr ++ be16 qty ++ [BitVec.ofNat 8 ((qty.toNat + 7) / 8)] ++ packCoils coils) ∨
     (∃ addr qty regs, i = .reqWriteMultipleRegisters tid unit addr qty regs ∧
       p = [0x10] ++ be16 addr ++ be16 qty ++ [BitVec.ofNat 8 (2 * qty.toNat)] ++ packRegs regs)) →
    ∃ t, exec i s = .next t ∧ t.block = s.block ∧ t.out = [] ∧
      t.codec = .frame (unit :: p ++ le16 (crc16 (unit :: p)))

/-- Read responses decode by their byte count, write responses of exactly 5 bytes to address and value; else Invalid.
From: 42_decode R177, 42_decode R178, 42_decode R179, 42_decode R180, 42_decode R181. Derived. In every state the five
typed response rows complete. A read response p = [fc] ++ payload decodes to its coil bytes, or to its registers (an
even byte count), when its length is 2 plus its byte count; a write response of 5 bytes decodes to its function code,
address and value; every other PDU decodes to Invalid. The block's state is unchanged and nothing is emitted. That the
rows are steps of their own and that the decoded value stands in the codec field are the model's choices
(notes/assumptions/6.md). -/
def Obligations.ResponseRows : Prop :=
  ∀ (s : State) (payload : List Byte),
    (∃ t, exec (.rspReadCoils payload) s = .next t ∧ t.block = s.block ∧ t.out = [] ∧
      t.codec = .pdu (match payload with
        | [] => .invalid
        | n :: data => if data.length = n.toNat then .coilBytes data else .invalid)) ∧
    (∃ t, exec (.rspReadHoldingRegisters payload) s = .next t ∧ t.block = s.block ∧ t.out = [] ∧
      t.codec = .pdu (match payload with
        | [] => .invalid
        | n :: data =>
          if data.length = n.toNat ∧ n.toNat % 2 = 0 then
            .regs ((List.range (n.toNat / 2)).map fun k => rdBE16 (0x03 :: n :: data) (2 + 2 * k))
          else .invalid)) ∧
    (∃ t, exec (.rspWriteSingleRegister payload) s = .next t ∧ t.block = s.block ∧ t.out = [] ∧
      t.codec = .pdu (if payload.length = 4 then
        .wr 0x06 (rdBE16 (0x06 :: payload) 1) (rdBE16 (0x06 :: payload) 3) else .invalid)) ∧
    (∃ t, exec (.rspWriteMultipleCoils payload) s = .next t ∧ t.block = s.block ∧ t.out = [] ∧
      t.codec = .pdu (if payload.length = 4 then
        .wr 0x0F (rdBE16 (0x0F :: payload) 1) (rdBE16 (0x0F :: payload) 3) else .invalid)) ∧
    (∃ t, exec (.rspWriteMultipleRegisters payload) s = .next t ∧ t.block = s.block ∧ t.out = [] ∧
      t.codec = .pdu (if payload.length = 4 then
        .wr 0x10 (rdBE16 (0x10 :: payload) 1) (rdBE16 (0x10 :: payload) 3) else .invalid))

/-- An exception response of 2 bytes decodes to its base function code and its unchanged code; else it is Invalid. From:
42_decode R176. Derived. In every state the exception response rows complete: with exactly one payload byte the PDU
decodes to the base function code (the first byte without bit 7) and that byte as the code, else to Invalid. The
block's state is unchanged and nothing is emitted. That the rows are steps of their own and that the decoded value
stands in the codec field are the model's choices (notes/assumptions/6.md). -/
def Obligations.ResponseExceptionRows : Prop :=
  ∀ (s : State) (payload : List Byte) (i : Instr) (fc base : Byte),
    ((i = .rspException81 payload ∧ fc = 0x81 ∧ base = 0x01) ∨ (i = .rspException83 payload ∧ fc = 0x83 ∧ base = 0x03) ∨
     (i = .rspException86 payload ∧ fc = 0x86 ∧ base = 0x06) ∨ (i = .rspException8F payload ∧ fc = 0x8F ∧ base = 0x0F) ∨
     (i = .rspException90 payload ∧ fc = 0x90 ∧ base = 0x10) ∨
     (i = .rspException fc payload ∧ i.WellFormed s.handleW = true ∧ base = fc &&& 0x7F)) →
    ∃ t, exec i s = .next t ∧ t.block = s.block ∧ t.out = [] ∧
      decode s.handleW ⟨.response, fc :: payload⟩ = .ok i ∧
      t.codec = .pdu (if payload.length = 1 then .exc base (byteAt payload 0) else .invalid)

/-- Every non-empty response PDU is one instruction, whose effect is decode_pdu of the PDU; unrecognised codes are
Invalid. From: 42_decode R175, 30_encoding R118, 30_encoding R113. Derived. Every non-empty response PDU decodes to an
instruction that completes in every state with decode_pdu of the PDU as its value, the block's state unchanged and no
output; a PDU whose function code is below 0x80 and none of the five is RSP_UNRECOGNISED and its value is Invalid. The
value stands in the model's own codec field (notes/assumptions/6.md). -/
def Obligations.ResponseRowsAgree : Prop :=
  (∀ (s : State) (p : List Byte), p ≠ [] →
    ∃ i t, decode s.handleW ⟨.response, p⟩ = .ok i ∧ exec i s = .next t ∧ t.block = s.block ∧ t.out = [] ∧
      t.codec = .pdu (decodePdu p)) ∧
  (∀ (s : State) (fc : Byte) (payload : List Byte), Instr.WellFormed s.handleW (.rspUnrecognised fc payload) = true →
    decode s.handleW ⟨.response, fc :: payload⟩ = .ok (.rspUnrecognised fc payload) ∧
    ∃ t, exec (.rspUnrecognised fc payload) s = .next t ∧ t.block = s.block ∧ t.out = [] ∧ t.codec = .pdu .invalid)

/-- For a valid request, a response is accepted exactly when it is the response layout of the request from the right unit.
From: 42_decode R182, 42_decode R184, 42_decode R185, 42_decode R186, 42_decode R187, 42_decode R188, 30_encoding R95,
30_encoding R96, 30_encoding R97, 30_encoding R98, 30_encoding R99. Derived. match_check of a valid request gives Good
exactly for the PDUs of the response layouts: the registers asked for, ceil(qty/8) coil bytes (padding ignored), the
echo of a single write, and the address and quantity of a multiple write; the body is what the layout carries, and the
unit id must match. -/
def Obligations.MatchAccepts : Prop :=
  ∀ (r : Req) (c : ExecCfg) (unit : Byte) (p : List Byte) (body : Body), validate r c = true →
    (matchCheck r unit p = .good body ↔
      unit = r.unit ∧
      ((r.fc = 0x01 ∧ ∃ d : List Byte, d.length = (r.qty.toNat + 7) / 8 ∧ p = [0x01, BitVec.ofNat 8 d.length] ++ d ∧
          body = .coils ((List.range r.qty.toNat).map fun k => (byteAt d (k / 8)).getLsbD (k % 8))) ∨
       (r.fc = 0x03 ∧ ∃ v : List Word16, v.length = r.qty.toNat ∧
          p = [0x03, BitVec.ofNat 8 (2 * v.length)] ++ packRegs v ∧ body = .registers v) ∨
       (r.fc = 0x06 ∧ p = [0x06] ++ be16 r.addr ++ be16 (r.regs.getD 0 0) ∧ body = .ack r.addr (r.regs.getD 0 0)) ∨
       (r.fc = 0x0F ∧ p = [0x0F] ++ be16 r.addr ++ be16 r.qty ∧ body = .ack r.addr r.qty) ∨
       (r.fc = 0x10 ∧ p = [0x10] ++ be16 r.addr ++ be16 r.qty ∧ body = .ack r.addr r.qty)))

/-- An exception PDU for the request's function code matches with its code unchanged; one for another code is Invalid.
Rules: R183. For a valid request and its unit, the PDU [fc OR 0x80, code] matches as the exception code, whatever the
code; no other PDU does; an exception PDU with another base function code is Invalid; and a response from another unit
is Invalid. -/
def Obligations.MatchException : Prop :=
  ∀ (r : Req) (c : ExecCfg) (unit : Byte) (p : List Byte) (code b : Byte), validate r c = true →
    (matchCheck r unit p = .exc code ↔ unit = r.unit ∧ p = [r.fc ||| 0x80, code]) ∧
    (b.getLsbD 7 = true → b &&& 0x7F ≠ r.fc → matchCheck r unit [b, code] = .invalid) ∧
    (unit ≠ r.unit → matchCheck r unit p = .invalid)

/-- A frame a framer slices off is one that decode accepts, with the same id, unit and PDU; a bad CRC is ChecksumMismatch.
From: 42_decode R190, 42_decode R171, 42_decode R172, 43_reassembly R207. Derived. A byte sequence with an acceptable
MBAP header and exactly its declared length decodes to the id, unit and PDU the TCP framer passes on; a sequence of 4
bytes or more decodes on RTU to the unit and PDU the RTU framer passes on when its CRC is good and to ChecksumMismatch
when it is bad; a header with a wrong protocol id or a length below 2 is MalformedLength. -/
def Obligations.FramersAgree : Prop :=
  ∀ f : List Byte,
    (headerOk f = true → f.length = 6 + (rdBE16 f 4).toNat →
      decodeFrame f .tcp = .ok ⟨some (rdBE16 f 0), byteAt f 6, f.drop 7⟩) ∧
    (6 ≤ f.length → rdBE16 f 2 ≠ 0 ∨ (rdBE16 f 4).toNat < 2 → decodeFrame f .tcp = .error .malformedLength) ∧
    (4 ≤ f.length → crcOk f = true →
      decodeFrame f .rtu = .ok ⟨none, byteAt f 0, (f.drop 1).take (f.length - 3)⟩) ∧
    (4 ≤ f.length → crcOk f = false → decodeFrame f .rtu = .error .checksumMismatch)

/-- The RTU framer's length inference, row by row. Rules: R212. With fewer than 2 bytes, or a read response without its
byte count, the framer waits; an exception response is 5 bytes, a write response 8, a read response 5 plus its byte
count, and every other function code is delimited by silence. -/
def Obligations.RtuLengthInference : Prop :=
  ∀ (f : List Byte) (unit fc n : Byte) (rest : List Byte),
    (f.length < 2 → rtuExpectedLen f = .wait) ∧
    (0x80 ≤ fc.toNat → rtuExpectedLen (unit :: fc :: rest) = .bytes 5) ∧
    (fc = 0x06 ∨ fc = 0x0F ∨ fc = 0x10 → rtuExpectedLen (unit :: fc :: rest) = .bytes 8) ∧
    (fc = 0x01 ∨ fc = 0x03 → rtuExpectedLen [unit, fc] = .wait) ∧
    (fc = 0x01 ∨ fc = 0x03 → rtuExpectedLen (unit :: fc :: n :: rest) = .bytes (5 + n.toNat)) ∧
    (fc.toNat < 0x80 → fc ≠ 0x06 → fc ≠ 0x0F → fc ≠ 0x10 → fc ≠ 0x01 → fc ≠ 0x03 →
      rtuExpectedLen (unit :: fc :: rest) = .silence)

/-- A refused EXECUTE writes no state and emits only RESULT InvalidRequest or RESULT Busy. Rules: R147, R251, R252. In
every state of the machine, EXECUTE with a request or configuration that validation refuses completes with the block's
state unchanged and the one output RESULT InvalidRequest for its handle; one that validation accepts does so with
RESULT Busy when a context whose phase is neither Idle nor Draining holds its handle, and when no context is Idle. -/
def Obligations.ExecuteRefused : Prop :=
  ∀ (s : State) (h : Handle) (r : Req) (cfg : ExecCfg), s.legal = true →
    (validate r cfg = false →
      ∃ t, exec (.evExecute h r cfg) s = .next t ∧ t.block = s.block ∧
        t.out = [.result ⟨h, .invalidRequest, 0, none, none⟩]) ∧
    (validate r cfg = true →
      ((∃ c ∈ s.ctxs, c.phase ≠ .idle ∧ c.phase ≠ .draining ∧ c.handle = h) ∨ (∀ c ∈ s.ctxs, c.phase ≠ .idle)) →
      ∃ t, exec (.evExecute h r cfg) s = .next t ∧ t.block = s.block ∧ t.out = [.result ⟨h, .busy, 0, none, none⟩])

/-- EXECUTE accepted while it cannot send: it opens a closed session, waits for an opening one, or waits for the resync.
From: 45_engine R250, 45_engine R253, 45_engine R261. Derived. In every state of the machine, a valid EXECUTE with a
free handle latches the request into the lowest Idle context. With link Down it emits REQ_OPEN, link becomes Opening
and the context rests in LinkWait; with link Opening it rests in LinkWait with no output; on an open RTU line under
resync it rests in ResyncWait with no output. Nothing else of the block changes. -/
def Obligations.ExecuteWaits : Prop :=
  ∀ (s : State) (h : Handle) (r : Req) (cfg : ExecCfg) (i : Nat),
    s.legal = true → validate r cfg = true →
    (∀ c ∈ s.ctxs, c.phase ≠ .idle → c.phase ≠ .draining → c.handle ≠ h) →
    i < s.ctxs.length → (s.ctx i).phase = .idle → (∀ j < i, (s.ctx j).phase ≠ .idle) →
    (s.link = .down →
      ∃ t, exec (.evExecute h r cfg) s = .next t ∧ t.out = [.reqOpen] ∧
        t.block = { s.block with
          link := .opening, ctxs := s.ctxs.set i (acceptedCtx (s.ctx i) h r cfg .linkWait) }) ∧
    (s.link = .opening →
      ∃ t, exec (.evExecute h r cfg) s = .next t ∧ t.out = [] ∧
        t.block = { s.block with ctxs := s.ctxs.set i (acceptedCtx (s.ctx i) h r cfg .linkWait) }) ∧
    (s.link = .up → s.kind = .rtu → s.rxDiscard = true →
      ∃ t, exec (.evExecute h r cfg) s = .next t ∧ t.out = [] ∧
        t.block = { s.block with ctxs := s.ctxs.set i (acceptedCtx (s.ctx i) h r cfg .resyncWait) })

/-- EXECUTE accepted on an open session sends at once: register, TX_FRAME of the encoded request, await the response.
From: 45_engine R250, 45_engine R253, 45_engine R261, 44_registry R233, 00_scope R17. Derived. In every state of the
machine with the session open, a valid EXECUTE with a free handle latches the request into the lowest Idle context. On
TCP (an Idle context holds no transaction, R47) the next free id is allocated and the counter set past it; on RTU
without a resync the id is 0 and the buffer is cleared. The one output is TX_FRAME of the encoded request, and the
context awaits the response with a Pending transaction and timer 0. Nothing else of the block changes, crc among it. -/
def Obligations.ExecuteSends : Prop :=
  ∀ (s : State) (h : Handle) (r : Req) (cfg : ExecCfg) (i : Nat),
    s.legal = true → validate r cfg = true →
    (∀ c ∈ s.ctxs, c.phase ≠ .idle → c.phase ≠ .draining → c.handle ≠ h) →
    i < s.ctxs.length → (s.ctx i).phase = .idle → (∀ j < i, (s.ctx j).phase ≠ .idle) →
    s.link = .up →
    (s.kind = .tcp → (s.ctx i).txn = .none →
      ∃ t, exec (.evExecute h r cfg) s = .next t ∧ t.out = [.txFrame (encodeTcp s.nextTid r.unit (pduOf r))] ∧
        t.block = { s.block with
          tidCtr := s.nextTid + 1
          ctxs := s.ctxs.set i (sentCtx s.nextTid (acceptedCtx (s.ctx i) h r cfg .sending)) }) ∧
    (s.kind = .rtu → s.rxDiscard = false →
      ∃ t, exec (.evExecute h r cfg) s = .next t ∧ t.out = [.txFrame (encodeRtu r.unit (pduOf r))] ∧
        t.block = { s.block with
          rxlen := 0
          ctxs := s.ctxs.set i (sentCtx 0 (acceptedCtx (s.ctx i) h r cfg .sending)) })

/-- The transaction id allocated on TCP is the first from the counter on that no Pending transaction holds. Rules: R232.
In every TCP state with at most 65535 contexts of which the calling one is not Pending, register allocates the first
id from tid_ctr on (mod 2^16) that no Pending transaction holds, sets tid_ctr one past it, and makes the context
Pending with that id; every other piece of state is unchanged. With tid_ctr = 0xFFFF free, the id is 0xFFFF and the
counter wraps to 0. -/
def Obligations.FreshTransactionId : Prop :=
  ∀ (s : State) (i : Nat), s.kind = .tcp → s.ctxs.length ≤ 65535 → i < s.ctxs.length → (s.ctx i).txn ≠ .pending →
    ∃ n : Nat, n < 65536 ∧
      (∀ k < n, ∃ c ∈ s.ctxs, c.txn = .pending ∧ c.tid = s.tidCtr + BitVec.ofNat 16 k) ∧
      (∀ c ∈ s.ctxs, ¬ (c.txn = .pending ∧ c.tid = s.tidCtr + BitVec.ofNat 16 n)) ∧
      (registerTxn i s).ctx i = { s.ctx i with tid := s.tidCtr + BitVec.ofNat 16 n, txn := .pending } ∧
      (registerTxn i s).block = { s.block with
        tidCtr := s.tidCtr + BitVec.ofNat 16 n + 1
        ctxs := s.ctxs.set i { s.ctx i with tid := s.tidCtr + BitVec.ofNat 16 n, txn := .pending } }

/-- CANCEL emits RESULT Cancelled and drains or frees the holder; of a handle nothing holds it does nothing. Rules: R266,
R267. CANCEL of a handle that no context in a phase other than Idle and Draining holds completes, in every state of
the machine, with the block's state unchanged and no output. In every state that meets the invariants, CANCEL of a
handle held by an active context completes with the one output RESULT Cancelled: an RTU context that awaits a response
goes to Draining with handle 0, no transaction and its timer kept; every other context is released. Nothing else of
the block changes. -/
def Obligations.CancelEffects : Prop :=
  (∀ (s : State) (h : Handle), s.legal = true →
    (∀ c ∈ s.ctxs, c.phase ≠ .idle → c.phase ≠ .draining → c.handle ≠ h) →
    ∃ t, exec (.evCancel h) s = .next t ∧ t.block = s.block ∧ t.out = []) ∧
  (∀ (s : State) (h : Handle) (i : Nat), s.Inv → i < s.ctxs.length →
    (s.ctx i).phase ≠ .idle → (s.ctx i).phase ≠ .draining → (s.ctx i).handle = h →
    ∃ t, exec (.evCancel h) s = .next t ∧ t.out = [.result ⟨h, .cancelled, 0, none, none⟩] ∧
      t.block = { s.block with
        ctxs := s.ctxs.set i
          (if s.kind = .rtu ∧ (s.ctx i).phase = .awaitingResponse then
            { s.ctx i with phase := .draining, handle := 0, txn := .none }
          else releasedCtx (s.ctx i)) })

/-- RX_BYTE while the session is not open, and RX_IDLE while it is not open or on TCP, write nothing and emit nothing.
From: 30_encoding R104, 43_reassembly R205, 43_reassembly R214. Derived. In every state of the machine with link other
than Up, RX_BYTE of any value completes with the block's state unchanged and no output; so does RX_IDLE with link
other than Up and on TCP. -/
def Obligations.RxByteNotTaken : Prop :=
  ∀ (s : State) (b : Byte), s.legal = true →
    (s.link ≠ .up → ∃ t, exec (.evRxByte b) s = .next t ∧ t.block = s.block ∧ t.out = []) ∧
    (s.link ≠ .up ∨ s.kind = .tcp → ∃ t, exec .evRxIdle s = .next t ∧ t.block = s.block ∧ t.out = [])

/-- On TCP a byte that neither completes a frame nor a bad header is appended at rxlen, and nothing else happens. From:
43_reassembly R201, 43_reassembly R205, 43_reassembly R206, 42_decode R173. Derived. In every TCP state of the machine
with the session open, a canonical buffer and room in it, RX_BYTE of a byte after which the header is incomplete, or
good, or the frame is not of its declared length, completes with the byte stored at index rxlen, rxlen one more, every
other byte and every other piece of state unchanged and no output. -/
def Obligations.TcpByteCollected : Prop :=
  ∀ (s : State) (b : Byte), s.legal = true → s.rxbuf.wf = true → s.kind = .tcp → s.link = .up → s.rxlen < 260 →
    (s.rxlen + 1 < 6 ∨ (s.rxlen + 1 = 6 ∧ headerOk (s.received b) = true) ∨
      (6 < s.rxlen + 1 ∧ s.rxlen + 1 ≠ 6 + (rdBE16 (s.received b) 4).toNat)) →
    ∃ t, exec (.evRxByte b) s = .next t ∧ t.out = [] ∧
      t.block = { s.block with rxbuf := t.rxbuf, rxlen := s.rxlen + 1 } ∧
      t.rxbuf.read s.rxlen = b ∧ (∀ a, a ≠ s.rxlen → t.rxbuf.read a = s.rxbuf.read a) ∧
      t.bufBytes = s.received b ∧ t.rxbuf.wf = true

/-- The last byte of a TCP frame that answers a Pending id ends the execute: RESULT OK with id and body, or
ModbusException. From: 45_engine R263, 43_reassembly R208, 44_registry R234, 45_engine R264. Derived. In every TCP
state that meets the invariants, when RX_BYTE completes a frame whose id is that of an awaiting context and which
matches its request, the one output is RESULT OK with that id and the body, or, for an exception response, RESULT
ModbusException with the code; the frame leaves the buffer, the context is released, and nothing else of the block
changes. -/
def Obligations.TcpResponse : Prop :=
  ∀ (s : State) (b : Byte) (i : Nat), s.Inv → s.kind = .tcp → s.link = .up → s.rxlen < 260 →
    6 < s.rxlen + 1 → s.rxlen + 1 = 6 + (rdBE16 (s.received b) 4).toNat →
    i < s.ctxs.length → (s.ctx i).phase = .awaitingResponse → (s.ctx i).tid = rdBE16 (s.received b) 0 →
    (∀ body, matchCheck (s.ctx i).req (byteAt (s.received b) 6) ((s.received b).drop 7) = .good body →
      ∃ t, exec (.evRxByte b) s = .next t ∧
        t.out = [.result ⟨(s.ctx i).handle, .ok, 0, some (s.ctx i).tid, some body⟩] ∧
        t.block = { s.block with
          rxbuf := Memory.write s.rxbuf s.rxlen b, rxlen := 0, ctxs := s.ctxs.set i (releasedCtx (s.ctx i)) }) ∧
    (∀ code, matchCheck (s.ctx i).req (byteAt (s.received b) 6) ((s.received b).drop 7) = .exc code →
      ∃ t, exec (.evRxByte b) s = .next t ∧
        t.out = [.result ⟨(s.ctx i).handle, .modbusException, code, none, none⟩] ∧
        t.block = { s.block with
          rxbuf := Memory.write s.rxbuf s.rxlen b, rxlen := 0, ctxs := s.ctxs.set i (releasedCtx (s.ctx i)) })

/-- The last byte of a TCP frame whose id no transaction awaits: one NOTE with the id, the frame consumed, nothing else.
From: 44_registry R239, 43_reassembly R208. Derived. In every TCP state that meets the invariants, when RX_BYTE
completes a frame whose id no awaiting context holds, the one output is NOTE StrayFrame with that id, the frame leaves
the buffer, and no context, no registry entry and nothing else of the block changes. The RTU case is in the statement
about RTU stray frames. -/
def Obligations.TcpStrayFrame : Prop :=
  ∀ (s : State) (b : Byte), s.Inv → s.kind = .tcp → s.link = .up → s.rxlen < 260 →
    6 < s.rxlen + 1 → s.rxlen + 1 = 6 + (rdBE16 (s.received b) 4).toNat →
    (∀ c ∈ s.ctxs, c.phase = .awaitingResponse → c.tid ≠ rdBE16 (s.received b) 0) →
    ∃ t, exec (.evRxByte b) s = .next t ∧ t.out = [.note .strayFrame (some (rdBE16 (s.received b) 0))] ∧
      t.block = { s.block with rxbuf := Memory.write s.rxbuf s.rxlen b, rxlen := 0 }

/-- A bad MBAP header, or a frame that answers a Pending id but does not match, aborts the session and fails every
attempt. Rules: R220. In every TCP state that meets the invariants, when RX_BYTE completes a bad header, or a frame
for an awaiting context that match_check finds Invalid, the session is closed (REQ_CLOSE first, link Down, buffer
empty) and every awaiting context's attempt fails, with MalformedFrame for the blamed id and ConnectionLost for the
others: it is retried per policy or ends with its RESULT, in index order. An immediate retry re-opens the session:
link is Opening, and one REQ_OPEN stands among the RESULTs at the turn of the first context that retries so. Every
other context and the rest of the block are unchanged. -/
def Obligations.TcpAbort : Prop :=
  ∀ (s : State) (b : Byte), s.Inv → s.kind = .tcp → s.link = .up → s.rxlen < 260 →
    ((s.rxlen + 1 = 6 ∧ headerOk (s.received b) = false) ∨
     (6 < s.rxlen + 1 ∧ s.rxlen + 1 = 6 + (rdBE16 (s.received b) 4).toNat ∧
       ∃ c ∈ s.ctxs, c.phase = .awaitingResponse ∧ c.tid = rdBE16 (s.received b) 0 ∧
         matchCheck c.req (byteAt (s.received b) 6) ((s.received b).drop 7) = .invalid)) →
    ∃ t, exec (.evRxByte b) s = .next t ∧
      t.block = { s.block with
        link := if s.ctxs.any abortReopens then .opening else .down
        rxbuf := Memory.write s.rxbuf s.rxlen b
        rxlen := 0
        ctxs := s.ctxs.map (abortCtx (rdBE16 (s.received b) 0)) } ∧
      t.out = .reqClose :: turnOutputs abortReopens (abortResult (rdBE16 (s.received b) 0)) s.ctxs

/-- On RTU every byte taken clears line_quiet; it is dropped during a resync, else appended while the frame is incomplete.
From: 43_reassembly R201, 43_reassembly R210, 43_reassembly R211. Derived. In every RTU state of the machine with the
session open and a canonical buffer, RX_BYTE clears line_quiet and emits nothing: during a resync nothing else
changes; otherwise, with room in the buffer and the frame not yet of its expected length, the byte is stored at index
rxlen, rxlen is one more and every other byte and piece of state is unchanged. -/
def Obligations.RtuByteTaken : Prop :=
  ∀ (s : State) (b : Byte), s.legal = true → s.rxbuf.wf = true → s.kind = .rtu → s.link = .up →
    (s.rxDiscard = true →
      ∃ t, exec (.evRxByte b) s = .next t ∧ t.out = [] ∧ t.block = { s.block with lineQuiet := false }) ∧
    (s.rxDiscard = false → s.rxlen < 260 → rtuExpectedLen (s.received b) ≠ .bytes (s.rxlen + 1) →
      ∃ t, exec (.evRxByte b) s = .next t ∧ t.out = [] ∧
        t.block = { s.block with lineQuiet := false, rxbuf := t.rxbuf, rxlen := s.rxlen + 1 } ∧
        t.rxbuf.read s.rxlen = b ∧ (∀ a, a ≠ s.rxlen → t.rxbuf.read a = s.rxbuf.read a) ∧
        t.bufBytes = s.received b)

/-- The last byte of a good RTU frame that matches the awaited request ends the execute with RESULT OK or ModbusException.
From: 43_reassembly R211, 43_reassembly R213, 45_engine R263, 45_engine R264. Derived. In every RTU state that meets
the invariants, when RX_BYTE completes a frame with a good CRC for an awaiting context and it matches the request, the
one output is RESULT OK with the body and no id, or RESULT ModbusException with the code; the frame leaves the buffer,
line_quiet is 0, the context is released, and nothing else of the block changes. -/
def Obligations.RtuResponse : Prop :=
  ∀ (s : State) (b : Byte), s.Inv → s.kind = .rtu → s.link = .up → s.rxDiscard = false → s.rxlen < 260 →
    rtuExpectedLen (s.received b) = .bytes (s.rxlen + 1) →
    crcOk (s.received b) = true → (s.ctx 0).phase = .awaitingResponse →
    (∀ body, matchCheck (s.ctx 0).req (byteAt (s.received b) 0) (sliceBytes (s.received b) 1 (s.rxlen - 1)) = .good body →
      ∃ t, exec (.evRxByte b) s = .next t ∧
        t.out = [.result ⟨(s.ctx 0).handle, .ok, 0, none, some body⟩] ∧
        t.block = { s.block with
          rxbuf := Memory.write s.rxbuf s.rxlen b, rxlen := 0, lineQuiet := false
          ctxs := [releasedCtx (s.ctx 0)] }) ∧
    (∀ code, matchCheck (s.ctx 0).req (byteAt (s.received b) 0) (sliceBytes (s.received b) 1 (s.rxlen - 1)) = .exc code →
      ∃ t, exec (.evRxByte b) s = .next t ∧
        t.out = [.result ⟨(s.ctx 0).handle, .modbusException, code, none, none⟩] ∧
        t.block = { s.block with
          rxbuf := Memory.write s.rxbuf s.rxlen b, rxlen := 0, lineQuiet := false
          ctxs := [releasedCtx (s.ctx 0)] })

/-- The last byte of a good RTU frame that nothing awaits: one NOTE, the frame consumed, a drain ended, no execute
touched. From: 43_reassembly R213, 44_registry R239, 43_reassembly R216. Derived. In every RTU state that meets the
invariants, when RX_BYTE completes a frame with a good CRC while the context is not AwaitingResponse, the one output
is NOTE StrayFrame without id and the frame leaves the buffer; a Draining context is released, and a context in any
other phase is unchanged. Nothing else of the block changes. -/
def Obligations.RtuStrayFrame : Prop :=
  ∀ (s : State) (b : Byte), s.Inv → s.kind = .rtu → s.link = .up → s.rxDiscard = false → s.rxlen < 260 →
    rtuExpectedLen (s.received b) = .bytes (s.rxlen + 1) →
    crcOk (s.received b) = true → (s.ctx 0).phase ≠ .awaitingResponse →
    ∃ t, exec (.evRxByte b) s = .next t ∧ t.out = [.note .strayFrame none] ∧
      t.block = { s.block with
        rxbuf := Memory.write s.rxbuf s.rxlen b, rxlen := 0, lineQuiet := false
        ctxs := [strayCtx (s.ctx 0)] }

/-- An RTU overflow, a bad CRC or a mismatch at a byte starts the resync and fails the awaited attempt; a drain ends.
From: 43_reassembly R210, 43_reassembly R211, 43_reassembly R213, 43_reassembly R221, 45_engine R262. Derived. In
every RTU state that meets the invariants and without a resync, RX_BYTE into a full buffer (the byte is dropped), or
one that completes a frame with a bad CRC, or with a good CRC that does not match the awaited request, completes with
the buffer empty, rx_discard 1 and line_quiet 0: an awaiting context fails with MalformedFrame, ChecksumMismatch,
MalformedFrame, where a retry without backoff waits in ResyncWait; in the first two cases a Draining context is
released; any other context is unchanged. Nothing else of the block changes. -/
def Obligations.RtuBadFrame : Prop :=
  ∀ (s : State) (b : Byte), s.Inv → s.kind = .rtu → s.link = .up → s.rxDiscard = false →
    (s.rxlen = 260 →
      ∃ t, exec (.evRxByte b) s = .next t ∧ t.out = lineErrOut .malformedFrame (s.ctx 0) ∧
        t.block = { s.block with
          rxlen := 0, rxDiscard := true, lineQuiet := false
          ctxs := [lineErrCtx .malformedFrame (s.ctx 0)] }) ∧
    (s.rxlen < 260 → rtuExpectedLen (s.received b) = .bytes (s.rxlen + 1) → crcOk (s.received b) = false →
      ∃ t, exec (.evRxByte b) s = .next t ∧ t.out = lineErrOut .checksumMismatch (s.ctx 0) ∧
        t.block = { s.block with
          rxbuf := Memory.write s.rxbuf s.rxlen b, rxlen := 0, lineQuiet := false, rxDiscard := true
          ctxs := [lineErrCtx .checksumMismatch (s.ctx 0)] }) ∧
    (s.rxlen < 260 → rtuExpectedLen (s.received b) = .bytes (s.rxlen + 1) → crcOk (s.received b) = true →
      (s.ctx 0).phase = .awaitingResponse →
      matchCheck (s.ctx 0).req (byteAt (s.received b) 0) (sliceBytes (s.received b) 1 (s.rxlen - 1)) = .invalid →
      ∃ t, exec (.evRxByte b) s = .next t ∧ t.out = lineErrOut .malformedFrame (s.ctx 0) ∧
        t.block = { s.block with
          rxbuf := Memory.write s.rxbuf s.rxlen b, rxlen := 0, lineQuiet := false, rxDiscard := true
          ctxs := [lineErrCtx .malformedFrame (s.ctx 0)] })

/-- RX_IDLE ends a resync, and a context that waited for it sends at once; on a quiet empty line it only sets line_quiet.
From: 43_reassembly R214, 45_engine R261. Derived. In every RTU state that meets the invariants with the session open:
during a resync RX_IDLE clears rx_discard and the buffer and sets line_quiet, and a context in ResyncWait sends its
frame and awaits the response while any other is unchanged and nothing is emitted; without a resync and with an empty
buffer RX_IDLE only sets line_quiet. Nothing else of the block changes. -/
def Obligations.RxIdleEndsResync : Prop :=
  ∀ s : State, s.Inv → s.kind = .rtu → s.link = .up →
    (s.rxDiscard = true → (s.ctx 0).phase = .resyncWait →
      ∃ t, exec .evRxIdle s = .next t ∧ t.out = [.txFrame (encodeFrame (s.ctx 0).req .rtu 0)] ∧
        t.block = { s.block with
          rxDiscard := false, rxlen := 0, lineQuiet := true, ctxs := [sentCtx 0 (s.ctx 0)] }) ∧
    (s.rxDiscard = true → (s.ctx 0).phase ≠ .resyncWait →
      ∃ t, exec .evRxIdle s = .next t ∧ t.out = [] ∧
        t.block = { s.block with rxDiscard := false, rxlen := 0, lineQuiet := true }) ∧
    (s.rxDiscard = false → s.rxlen = 0 →
      ∃ t, exec .evRxIdle s = .next t ∧ t.out = [] ∧ t.block = { s.block with lineQuiet := true })

/-- RX_IDLE with bytes in the RTU buffer ends the frame: cut short, bad CRC, or a frame of an unrecognised function code.
From: 43_reassembly R214, 43_reassembly R215, 43_reassembly R213, 43_reassembly R221, 30_encoding R118. Derived. In
every RTU state that meets the invariants, open, without a resync and with bytes in the buffer, RX_IDLE empties the
buffer and sets line_quiet, and no resync follows. A frame of known length or of fewer than 4 bytes fails an awaited
attempt with MalformedFrame; a silence-delimited frame with a bad CRC fails it with ChecksumMismatch, with a good CRC
with MalformedFrame, and a retry without backoff is sent at once. Without an awaited attempt an error ends a drain and
a good frame is a stray frame. Nothing else of the block changes. -/
def Obligations.RxIdleEndsFrame : Prop :=
  ∀ s : State, s.Inv → s.kind = .rtu → s.link = .up → s.rxDiscard = false → 0 < s.rxlen →
    (rtuExpectedLen s.bufBytes ≠ .silence ∨ s.rxlen < 4 →
      ∃ t, exec .evRxIdle s = .next t ∧ t.out = quietErrOut .malformedFrame (s.ctx 0) ∧
        t.block = { s.block with
          rxlen := 0, lineQuiet := true, ctxs := [quietErrCtx .malformedFrame (s.ctx 0)] }) ∧
    (rtuExpectedLen s.bufBytes = .silence → 4 ≤ s.rxlen → crcOk s.bufBytes = false →
      ∃ t, exec .evRxIdle s = .next t ∧ t.out = quietErrOut .checksumMismatch (s.ctx 0) ∧
        t.block = { s.block with
          rxlen := 0, lineQuiet := true, ctxs := [quietErrCtx .checksumMismatch (s.ctx 0)] }) ∧
    (rtuExpectedLen s.bufBytes = .silence → 4 ≤ s.rxlen → crcOk s.bufBytes = true →
      (s.ctx 0).phase = .awaitingResponse →
      ∃ t, exec .evRxIdle s = .next t ∧ t.out = quietErrOut .malformedFrame (s.ctx 0) ∧
        t.block = { s.block with
          rxlen := 0, lineQuiet := true, ctxs := [quietErrCtx .malformedFrame (s.ctx 0)] }) ∧
    (rtuExpectedLen s.bufBytes = .silence → 4 ≤ s.rxlen → crcOk s.bufBytes = true →
      (s.ctx 0).phase ≠ .awaitingResponse →
      ∃ t, exec .evRxIdle s = .next t ∧ t.out = [.note .strayFrame none] ∧
        t.block = { s.block with
          rxlen := 0, lineQuiet := true, ctxs := [strayCtx (s.ctx 0)] })

/-- A TICK that does not bring a context to its limit advances its timer by one and does nothing else for it. From:
45_engine R270, 60_exceptions R316, 60_exceptions R309, 10_state R45. Derived. In every state of the machine TICK
completes. Whatever the other contexts do, a timed context whose timer stays below its limit (retry_backoff_ms in
Backoff, timeout_ms in the other timed phases) keeps every field but its timer, which is one more, an Idle context is
unchanged, and each output is the work of a context that reaches its limit: there are no more outputs than such
contexts. When no context reaches its limit nothing is emitted and the rest of the block is unchanged. -/
def Obligations.TickAdvancesTimers : Prop :=
  ∀ s : State, s.legal = true →
    ∃ t, exec .evTick s = .next t ∧ t.ctxs.length = s.ctxs.length ∧
      (∀ i < s.ctxs.length, isTimed (s.ctx i).phase = true → (s.ctx i).timer.toNat + 1 < (s.ctx i).limit.toNat →
        t.ctx i = { s.ctx i with timer := (s.ctx i).timer + 1 }) ∧
      (∀ i < s.ctxs.length, (s.ctx i).phase = .idle → t.ctx i = s.ctx i) ∧
      t.out.length ≤ s.ctxs.countP Ctx.dueOnTick ∧
      ((∀ c ∈ s.ctxs, c.dueOnTick = false) →
        t.out = [] ∧ t.block = { s.block with
          ctxs := s.ctxs.map fun c => if isTimed c.phase = true then { c with timer := c.timer + 1 } else c })

/-- The TICK that reaches timeout_ms expires an awaited attempt: retry counted and backed off, retry sent, or RESULT
Timeout. From: 45_engine R270, 45_engine R271, 45_engine R262, 44_registry R237. Derived. In every state that meets
the invariants, on the TICK that brings an awaiting context's timer to timeout_ms the attempt fails with Timeout: with
a retry left the retry is counted, the failure saved and the context rests in Backoff, or, without a backoff, a new
frame of the latched request is sent in the same step (id 0 on RTU); with none left it is released and RESULT Timeout
is emitted. -/
def Obligations.TickResponseDeadline : Prop :=
  ∀ (s : State) (i : Nat), s.Inv → i < s.ctxs.length → (s.ctx i).phase = .awaitingResponse →
    (s.ctx i).cfg.timeoutMs.toNat ≤ (s.ctx i).timer.toNat + 1 →
    ∃ t, exec .evTick s = .next t ∧
      t.ctx i = failedOpenCtx .timeout (t.ctx i).tid (s.ctx i) ∧
      ((s.ctx i).retriesNow = true → .txFrame (encodeFrame (s.ctx i).req s.kind (t.ctx i).tid) ∈ t.out) ∧
      ((s.ctx i).retriesNow = true → s.kind = .rtu → (t.ctx i).tid = 0) ∧
      ((s.ctx i).hasRetry = false → .result ⟨(s.ctx i).handle, .timeout, 0, none, none⟩ ∈ t.out)

/-- The TICK that reaches retry_backoff_ms sends the retry, opens or awaits the session, or waits for the resync. From:
45_engine R270, 45_engine R272, 45_engine R261, 60_exceptions R311. Derived. In every state that meets the invariants,
on the TICK that brings a context's timer in Backoff to retry_backoff_ms: on an open session without resync the frame
of the latched request is sent and awaited; during an RTU resync the context rests in ResyncWait; with the session not
open it rests in LinkWait, and from a closed session REQ_OPEN is emitted and link becomes Opening. The retry count,
the handle, the request and the configuration are kept. -/
def Obligations.TickBackoffEnds : Prop :=
  ∀ (s : State) (i : Nat), s.Inv → i < s.ctxs.length → (s.ctx i).phase = .backoff →
    (s.ctx i).cfg.retryBackoffMs.toNat ≤ (s.ctx i).timer.toNat + 1 →
    ∃ t, exec .evTick s = .next t ∧
      (s.link = .up → s.rxDiscard = false →
        t.ctx i = sentCtx (t.ctx i).tid (s.ctx i) ∧
        .txFrame (encodeFrame (s.ctx i).req s.kind (t.ctx i).tid) ∈ t.out) ∧
      (s.link = .up → s.rxDiscard = true → t.ctx i = { s.ctx i with phase := .resyncWait, timer := 0 }) ∧
      (s.link ≠ .up → t.ctx i = { s.ctx i with phase := .linkWait, timer := 0 } ∧ t.link = .opening) ∧
      (s.link = .down → .reqOpen ∈ t.out)

/-- The TICK that reaches timeout_ms ends an RTU resync and sends the retry, or ends a drain with no output. Rules: R273,
R277. In every state that meets the invariants: on the TICK that brings the timer of the RTU context in ResyncWait to
timeout_ms, rx_discard becomes 0, the buffer is cleared, and the frame of the latched request is sent and awaited; on
the TICK that brings the timer of the RTU context in Draining, which kept counting from the cancelled attempt's send,
to timeout_ms, the context is released and nothing is emitted. The rest of the block is unchanged. -/
def Obligations.TickRtuDeadlines : Prop :=
  ∀ s : State, s.Inv → (s.ctx 0).cfg.timeoutMs.toNat ≤ (s.ctx 0).timer.toNat + 1 →
    ((s.ctx 0).phase = .resyncWait →
      ∃ t, exec .evTick s = .next t ∧ t.out = [.txFrame (encodeFrame (s.ctx 0).req .rtu 0)] ∧
        t.block = { s.block with rxDiscard := false, rxlen := 0, ctxs := [sentCtx 0 (s.ctx 0)] }) ∧
    ((s.ctx 0).phase = .draining →
      ∃ t, exec .evTick s = .next t ∧ t.out = [] ∧ t.block = { s.block with ctxs := [releasedCtx (s.ctx 0)] })

/-- The TICK that reaches timeout_ms in LinkWait fails the attempt with ConnectionError; link stays Opening, no new
REQ_OPEN. Rules: R274. In every state that meets the invariants, on the TICK that brings a context's timer in LinkWait
to timeout_ms its attempt fails with ConnectionError: with a retry left it is counted and the context rests in
Backoff, or without a backoff in LinkWait again; with none left it is released and RESULT ConnectionError is emitted.
link stays Opening and REQ_OPEN is not emitted again. -/
def Obligations.TickLinkWaitDeadline : Prop :=
  ∀ (s : State) (i : Nat), s.Inv → i < s.ctxs.length → (s.ctx i).phase = .linkWait →
    (s.ctx i).cfg.timeoutMs.toNat ≤ (s.ctx i).timer.toNat + 1 →
    ∃ t, exec .evTick s = .next t ∧
      t.ctx i = failedCtx .connectionError .linkWait (s.ctx i) ∧ t.link = .opening ∧ .reqOpen ∉ t.out ∧
      ((s.ctx i).hasRetry = false → .result ⟨(s.ctx i).handle, .connectionError, 0, none, none⟩ ∈ t.out)

/-- LINK_UP on TCP sends every waiting context's frame in index order with consecutive transaction ids. From: 45_engine
R275, 45_engine R261, 44_registry R232, 44_registry R241. Derived. In every TCP state that meets the invariants with
the session not open, LINK_UP opens it and sends, in ascending index, the frame of every context in LinkWait; no id is
Pending then, so the k-th of them gets the id tid_ctr + k (mod 2^16) and awaits its response, and tid_ctr advances by
their number. Every other context and the rest of the block are unchanged. With link already Up nothing changes and
nothing is emitted. -/
def Obligations.LinkUpTcp : Prop :=
  ∀ s : State, s.Inv →
    (s.link = .up → ∃ t, exec .evLinkUp s = .next t ∧ t.block = s.block ∧ t.out = []) ∧
    (s.kind = .tcp → s.link ≠ .up →
      ∃ t, exec .evLinkUp s = .next t ∧ t.link = .up ∧
        t.block = { s.block with
          link := .up, tidCtr := s.tidCtr + BitVec.ofNat 16 s.waiting.length, ctxs := t.ctxs } ∧
        t.ctxs.length = s.ctxs.length ∧
        t.out = (List.range s.waiting.length).map (fun k =>
          .txFrame (encodeFrame (s.ctx (s.waiting.getD k 0)).req .tcp (s.tidCtr + BitVec.ofNat 16 k))) ∧
        (∀ k < s.waiting.length,
          t.ctx (s.waiting.getD k 0) = sentCtx (s.tidCtr + BitVec.ofNat 16 k) (s.ctx (s.waiting.getD k 0))) ∧
        (∀ i < s.ctxs.length, (s.ctx i).phase ≠ .linkWait → t.ctx i = s.ctx i))

/-- LINK_UP on RTU opens the session and sends the waiting context's frame, if it waits. From: 45_engine R275, 45_engine
R261. Derived. In every RTU state that meets the invariants with the session not open, LINK_UP sets link to Up; a
context in LinkWait sends its frame with the buffer cleared and awaits the response; any other context is unchanged
and nothing is emitted. Nothing else of the block changes. -/
def Obligations.LinkUpRtu : Prop :=
  ∀ s : State, s.Inv → s.kind = .rtu → s.link ≠ .up →
    ((s.ctx 0).phase = .linkWait →
      ∃ t, exec .evLinkUp s = .next t ∧ t.out = [.txFrame (encodeFrame (s.ctx 0).req .rtu 0)] ∧
        t.block = { s.block with link := .up, rxlen := 0, ctxs := [sentCtx 0 (s.ctx 0)] }) ∧
    ((s.ctx 0).phase ≠ .linkWait →
      ∃ t, exec .evLinkUp s = .next t ∧ t.out = [] ∧ t.block = { s.block with link := .up })

/-- LINK_DOWN resets the receive side and fails, re-opens or releases every context by its phase, in index order. Rules:
R276. In every state that meets the invariants with link not Down, LINK_DOWN empties the buffer, clears rx_discard,
sets line_quiet, fails every awaiting attempt with ConnectionLost and every attempt in LinkWait with ConnectionError
(retried per policy or ended with its RESULT, in index order), sends a context in ResyncWait to LinkWait and releases
a Draining one; Idle and Backoff contexts and the rest of the block are unchanged. An immediate retry or a context
that waited for the resync re-opens the session: link is Opening and one REQ_OPEN stands among the RESULTs at the turn
of the first such context; else link is Down. With link already Down nothing changes and nothing is emitted. -/
def Obligations.LinkDownFailsAll : Prop :=
  ∀ s : State, s.Inv →
    (s.link = .down → ∃ t, exec .evLinkDown s = .next t ∧ t.block = s.block ∧ t.out = []) ∧
    (s.link ≠ .down →
      ∃ t, exec .evLinkDown s = .next t ∧
        t.block = { s.block with
          link := if s.ctxs.any lossReopens then .opening else .down
          rxlen := 0, rxDiscard := false, lineQuiet := true
          ctxs := s.ctxs.map lossCtx } ∧
        t.out = turnOutputs lossReopens lossResult s.ctxs)

/-- What reset leaves, in every instance, and from any activity. From: 10_state R53, 70_reset_and_hazards R330,
70_reset_and_hazards R334, 00_scope R11. Derived. For every instance, after reset KIND and HANDLE_W are the
parameters, link is Down, tid_ctr 0, rxlen 0, rx_discard 0, line_quiet 1, crc 0xFFFF, there are N_CTX contexts and
each is Idle with no transaction and every field 0 or empty, and no output is emitted; the reset input puts any state
of the machine there, for the same KIND, N_CTX and HANDLE_W. The reset input as a function outside the step is the
model's choice (notes/assumptions/15.md), and so are the contents of rxbuf that the second clause's equality fixes,
which R53 and R334 leave unspecified (notes/assumptions/3.md). -/
def Obligations.ResetValues : Prop :=
  (∀ p : Params, p.inRange →
    (State.resetOf p).kind = p.kind ∧ (State.resetOf p).handleW = p.handleW ∧
    (State.resetOf p).link = .down ∧ (State.resetOf p).tidCtr = 0x0000 ∧
    (State.resetOf p).rxlen = 0 ∧ (State.resetOf p).rxDiscard = false ∧ (State.resetOf p).lineQuiet = true ∧
    (State.resetOf p).crc = 0xFFFF ∧ (State.resetOf p).ctxs.length = p.nCtx ∧ (State.resetOf p).out = [] ∧
    (∀ c ∈ (State.resetOf p).ctxs,
      c = ⟨.idle, 0, ⟨0, 0, 0, 0, [], []⟩, ⟨0, 0, 0⟩, 0, 0, .none, 0, .ok⟩)) ∧
  (∀ s : State, s.legal = true → ∃ p : Params, p.kind = s.kind ∧ p.nCtx = s.ctxs.length ∧ p.handleW = s.handleW ∧
    s.resetInput.handleW = p.handleW ∧ s.resetInput.block = (State.resetOf p).block ∧ s.resetInput.out = [])

/-- The invariants hold at reset, for every instance. From: 10_state R47, 10_state R53, 70_reset_and_hazards R330.
Derived. For every instance in the parameter range the state after reset meets the invariants of R47, has no overdue
deadline and holds no handle wider than HANDLE_W; so does State.reset, the instance the model chose
(notes/assumptions/1.md). -/
def Obligations.InvariantsAtReset : Prop :=
  (∀ p : Params, p.inRange → (State.resetOf p).Inv ∧ (State.resetOf p).DeadlinesAhead ∧ (State.resetOf p).HandlesFit) ∧
  State.reset.Inv ∧ State.reset.DeadlinesAhead ∧ State.reset.HandlesFit

/-- Every step keeps the invariants that hold between steps. Rules: R47. From every state that meets the invariants, a
step that answers a next state answers one that meets them: phases are resting; a transaction is Pending exactly while
a response is awaited; AwaitingResponse and Draining need the session Up, LinkWait Opening, ResyncWait an RTU resync;
no resync runs during an RTU exchange; no two Pending TCP transactions share an id and no two active contexts a
handle; RTU has one context; no complete frame rests in the buffer; and the buffer is in canonical form within its
capacity. -/
def Obligations.InvariantsKept : Prop :=
  ∀ s t : State, s.Inv → step s = .next t → t.Inv

/-- No deadline is ever overdue, and no execute has more retries than its configuration allows. From: 60_exceptions R316,
45_engine R262, 45_engine R270. Derived. From every state that meets the invariants and in which every timed context's
timer is below its limit and every active context's retry count is at most max_retries, a step that answers a next
state answers one of which the same holds. -/
def Obligations.DeadlinesKept : Prop :=
  ∀ s t : State, s.Inv → s.DeadlinesAhead → step s = .next t → t.DeadlinesAhead

/-- In every state that meets the invariants every instruction has a next state. From: 45_engine R282, 10_state R47.
Derived. No input event is undefined in any state that meets the invariants: every instruction of the machine, with
every operand, completes with a next state. -/
def Obligations.EveryInstructionCompletes : Prop :=
  ∀ (i : Instr) (s : State), s.Inv → ∃ t, exec i s = .next t

/-- No instruction writes KIND, HANDLE_W or the table's size; each block register is written only by the instructions
named for it. From: 00_scope R11, 00_scope R17, 10_state R31, 10_state R32, 10_state R33, 10_state R34, 10_state R35,
10_state R36, 10_state R37, 43_reassembly R201, 40_crc R130. Derived. Whatever instruction completes: KIND, HANDLE_W,
N_CTX and the inbox are unchanged; link is written only by EXECUTE, RX_BYTE, TICK, LINK_UP and LINK_DOWN, and on RTU
not by RX_BYTE; tid_ctr only by EXECUTE, TICK and LINK_UP, and never on RTU; of the buffer only the byte at index
rxlen can change, and only RX_BYTE can change it; rxlen is written only by EXECUTE, RX_BYTE, RX_IDLE, TICK, LINK_UP
and LINK_DOWN, and on TCP only by RX_BYTE, TICK and LINK_DOWN; line_quiet only by RX_BYTE, RX_IDLE and LINK_DOWN;
rx_discard only by those and TICK; crc only by CRC_INIT and CRC_UPDATE. -/
def Obligations.WhoWritesWhat : Prop :=
  ∀ (i : Instr) (s t : State), exec i s = .next t →
    t.kind = s.kind ∧ t.handleW = s.handleW ∧ t.ctxs.length = s.ctxs.length ∧ t.inbox = s.inbox ∧
    (∀ a, a ≠ s.rxlen → t.rxbuf.read a = s.rxbuf.read a) ∧
    ((∀ b, i ≠ .evRxByte b) → t.rxbuf = s.rxbuf) ∧
    ((∀ b, i ≠ .evRxByte b) → i ≠ .evRxIdle → i ≠ .evLinkDown → t.lineQuiet = s.lineQuiet) ∧
    ((∀ b, i ≠ .evRxByte b) → i ≠ .evRxIdle → i ≠ .evLinkDown → i ≠ .evTick → t.rxDiscard = s.rxDiscard) ∧
    ((∀ h r c, i ≠ .evExecute h r c) → (∀ b, i ≠ .evRxByte b) → i ≠ .evTick → i ≠ .evLinkUp → i ≠ .evLinkDown →
      t.link = s.link) ∧
    (s.kind = .rtu → (∀ h r c, i ≠ .evExecute h r c) → i ≠ .evTick → i ≠ .evLinkUp → i ≠ .evLinkDown →
      t.link = s.link) ∧
    ((∀ h r c, i ≠ .evExecute h r c) → i ≠ .evTick → i ≠ .evLinkUp → t.tidCtr = s.tidCtr) ∧
    (s.kind = .rtu → t.tidCtr = s.tidCtr) ∧
    ((∀ h r c, i ≠ .evExecute h r c) → (∀ b, i ≠ .evRxByte b) → i ≠ .evRxIdle → i ≠ .evTick → i ≠ .evLinkUp →
      i ≠ .evLinkDown → t.rxlen = s.rxlen) ∧
    (s.kind = .tcp → (∀ b, i ≠ .evRxByte b) → i ≠ .evTick → i ≠ .evLinkDown → t.rxlen = s.rxlen) ∧
    (i ≠ .crcInit → (∀ b, i ≠ .crcUpdate b) → t.crc = s.crc)

/-- A latched request is never written between the EXECUTE that fills it and the release of its context. From: 10_state
R41, 20_memory R84. Derived. Whatever instruction completes, every context keeps its request and configuration, but an
Idle one that an EXECUTE fills with that EXECUTE's request and configuration. -/
def Obligations.LatchedRequestKept : Prop :=
  ∀ (i : Instr) (s t : State) (j : Nat), exec i s = .next t → j < s.ctxs.length →
    ((t.ctx j).req = (s.ctx j).req ∧ (t.ctx j).cfg = (s.ctx j).cfg) ∨
    ((s.ctx j).phase = .idle ∧ ∃ h r cfg, i = .evExecute h r cfg ∧ (t.ctx j).req = r ∧ (t.ctx j).cfg = cfg)

/-- Every RESULT and NOTE has the fields its status and the kind call for, and no frame follows a REQ_CLOSE in one step.
From: 30_encoding R109, 30_encoding R110, 60_exceptions R305, 70_reset_and_hazards R346. Derived. Whatever instruction
completes, a RESULT it emits has a body exactly with status OK, an id exactly with status OK on TCP, and exception
code 0 unless its status is ModbusException; a NOTE has an id exactly on TCP; and a step that emits REQ_CLOSE emits it
first and once, and no TX_FRAME. -/
def Obligations.OutputsWellFormed : Prop :=
  ∀ (i : Instr) (s t : State), exec i s = .next t →
    (∀ r, .result r ∈ t.out →
      (r.body.isSome = true ↔ r.status = .ok) ∧ (r.tid.isSome = true ↔ r.status = .ok ∧ s.kind = .tcp) ∧
      (r.status ≠ .modbusException → r.excCode = 0)) ∧
    (∀ k tid, .note k tid ∈ t.out → (tid.isSome = true ↔ s.kind = .tcp)) ∧
    (.reqClose ∈ t.out → t.out.head? = some .reqClose ∧ t.out.count .reqClose = 1 ∧
      ∀ f, .txFrame f ∉ t.out)

/-- RESULTs and executes balance: every step emits one RESULT for each execute of a handle it ends or refuses. From:
60_exceptions R313, 30_encoding R109. Derived. Whatever instruction completes, for every handle h the RESULTs of h it
emits plus the contexts active for h after it are the contexts active for h before it, plus 1 when the instruction is
an EXECUTE of h. So an accepted execute gets its RESULT exactly when its context stops being active, and a refused
EXECUTE gets its RESULT in its own step. -/
def Obligations.OneResultPerExecute : Prop :=
  ∀ (i : Instr) (s t : State) (h : Handle), exec i s = .next t →
    ((∀ r cfg, i ≠ .evExecute h r cfg) →
      t.out.countP (Output.isResultOf h) + t.activeCount h = s.activeCount h) ∧
    (∀ r cfg, i = .evExecute h r cfg →
      t.out.countP (Output.isResultOf h) + t.activeCount h = s.activeCount h + 1)

/-- An accepted execute gets its RESULT within (1 + max_retries) * 3 * timeout_ms + max_retries * retry_backoff_ms TICKs.
From: 60_exceptions R313. Derived. From every state that meets the invariants with no overdue deadline, after a valid
EXECUTE with a free handle and an Idle context, every sequence of instructions with at least that many TICKs runs
without a stop and some step of it emits a RESULT for the handle whose status is neither Busy nor InvalidRequest. -/
def Obligations.EveryExecuteEnds : Prop :=
  ∀ (s : State) (h : Handle) (r : Req) (cfg : ExecCfg) (is : List Instr), s.Inv → s.DeadlinesAhead →
    validate r cfg = true → (∀ c ∈ s.ctxs, c.phase ≠ .idle → c.phase ≠ .draining → c.handle ≠ h) →
    (∃ c ∈ s.ctxs, c.phase = .idle) →
    (1 + cfg.maxRetries.toNat) * 3 * cfg.timeoutMs.toNat + cfg.maxRetries.toNat * cfg.retryBackoffMs.toNat ≤
      is.count .evTick →
    ∃ outs t, runInstrs (.evExecute h r cfg :: is) s = some (outs, t) ∧
      ∃ x, .result x ∈ outs.flatten ∧ x.handle = h ∧ x.status ≠ .busy ∧ x.status ≠ .invalidRequest

/-- An unanswered execute sends exactly 1 + max_retries frames, then RESULT Timeout on the TICK the rule computes. From:
45_engine R281, 45_engine R262, 45_engine R271, 45_engine R272. Derived. From every state of the machine with the
session open, no resync and every context Idle, a valid EXECUTE followed only by TICKs sends exactly 1 + max_retries
frames and nothing else up to the TICK number (1 + max_retries) * timeout_ms + max_retries * retry_backoff_ms after
it, whose one output is RESULT Timeout for the handle. -/
def Obligations.AttemptCount : Prop :=
  ∀ (s : State) (h : Handle) (r : Req) (cfg : ExecCfg), s.legal = true → s.link = .up → s.rxDiscard = false →
    validate r cfg = true → (∀ c ∈ s.ctxs, c.phase = .idle) →
    ∃ outs t,
      runInstrs (.evExecute h r cfg ::
        List.replicate
          ((1 + cfg.maxRetries.toNat) * cfg.timeoutMs.toNat + cfg.maxRetries.toNat * cfg.retryBackoffMs.toNat)
          .evTick) s = some (outs, t) ∧
      outs.getLast? = some [.result ⟨h, .timeout, 0, none, none⟩] ∧
      outs.dropLast.flatten.length = 1 + cfg.maxRetries.toNat ∧
      (∀ o ∈ outs.dropLast.flatten, o.isTxFrame = true)

/-- The failure entry: what attempt_fail! saves, what it changes, and where the context goes. Rules: R310, R262. In every
state and for every context in the table whose transaction is None or Pending, attempt_fail! with a retryable failure
destroys the transaction and saves the failure in last_err. With no retry left it emits the RESULT and releases the
context; with one left it counts the retry and goes to Backoff with timer 0, and with no backoff goes on to sending!
from there. Nothing else of the block changes before a retry is sent. With a failure that is not retryable it ends the
execute. -/
def Obligations.FailureEntry : Prop :=
  ∀ (s : State) (i : Nat) (err : Status), i < s.ctxs.length →
    (s.ctx i).txn = .none ∨ (s.ctx i).txn = .pending →
    (retryable err = false ∨ ¬ (s.ctx i).attempt.toNat < (s.ctx i).cfg.maxRetries.toNat →
      (attemptFail i err s).out = s.out ++ [.result ⟨(s.ctx i).handle, err, 0, none, none⟩] ∧
      (attemptFail i err s).block = { s.block with
        ctxs := s.ctxs.set i { s.ctx i with lastErr := err, txn := .none, phase := .idle, handle := 0, timer := 0 } }) ∧
    (retryable err = true → (s.ctx i).attempt.toNat < (s.ctx i).cfg.maxRetries.toNat →
      (s.ctx i).cfg.retryBackoffMs ≠ 0 →
      (attemptFail i err s).out = s.out ∧
      (attemptFail i err s).block = { s.block with
        ctxs := s.ctxs.set i { s.ctx i with
          lastErr := err, txn := .none, attempt := (s.ctx i).attempt + 1, phase := .backoff, timer := 0 } }) ∧
    (retryable err = true → (s.ctx i).attempt.toNat < (s.ctx i).cfg.maxRetries.toNat →
      (s.ctx i).cfg.retryBackoffMs = 0 →
      attemptFail i err s = sendAttempt i { s with
        ctxs := s.ctxs.set i { s.ctx i with
          lastErr := err, txn := .none, attempt := (s.ctx i).attempt + 1, phase := .backoff, timer := 0 } })

/-- The return from a failure, sending!: open, wait for the session, wait for the resync, or register and send. Rules:
R261. In every state and for every context in the table: with link Down, sending! emits REQ_OPEN, link becomes Opening
and the context rests in LinkWait; with link Opening it rests in LinkWait; with link Up during an RTU resync it rests
in ResyncWait; otherwise it registers a transaction (a newly allocated id on TCP, id 0 on RTU), clears the buffer on
RTU, emits TX_FRAME of the latched request and rests in AwaitingResponse. The timer restarts at 0 and nothing else of
the block changes. -/
def Obligations.FailureReturn : Prop :=
  ∀ (s : State) (i : Nat), i < s.ctxs.length →
    (s.link = .down →
      (sendAttempt i s).out = s.out ++ [.reqOpen] ∧
      (sendAttempt i s).block = { s.block with
        link := .opening, ctxs := s.ctxs.set i { s.ctx i with phase := .linkWait, timer := 0 } }) ∧
    (s.link = .opening →
      (sendAttempt i s).out = s.out ∧
      (sendAttempt i s).block = { s.block with
        ctxs := s.ctxs.set i { s.ctx i with phase := .linkWait, timer := 0 } }) ∧
    (s.link = .up → s.kind = .rtu → s.rxDiscard = true →
      (sendAttempt i s).out = s.out ∧
      (sendAttempt i s).block = { s.block with
        ctxs := s.ctxs.set i { s.ctx i with phase := .resyncWait, timer := 0 } }) ∧
    (s.link = .up → s.kind = .rtu → s.rxDiscard = false →
      (sendAttempt i s).out = s.out ++ [.txFrame (encodeFrame (s.ctx i).req .rtu 0)] ∧
      (sendAttempt i s).block = { s.block with
        rxlen := 0, ctxs := s.ctxs.set i (sentCtx 0 (s.ctx i)) }) ∧
    (s.link = .up → s.kind = .tcp →
      (sendAttempt i s).out = s.out ++ [.txFrame (encodeFrame (s.ctx i).req .tcp s.nextTid)] ∧
      (sendAttempt i s).block = { s.block with
        tidCtr := s.nextTid + 1, ctxs := s.ctxs.set i (sentCtx s.nextTid (s.ctx i)) })

/-- Every handle the block holds or returns is HANDLE_W bits wide, at every step. From: 00_scope R11, 10_state R40,
30_encoding R102, 30_encoding R109. Derived. From every state in which each context's handle and each handle of the
output list just emitted is less than 2^HANDLE_W, a step that answers a next state answers one of which the same
holds, with the same HANDLE_W: the ports carry HANDLE_W bits of handle, whatever bytes a port word has, and the block
returns in a RESULT only a handle that an event carried or a context held. -/
def Obligations.HandleWidthKept : Prop :=
  ∀ s t : State, s.HandlesFit → step s = .next t → t.handleW = s.handleW ∧ t.HandlesFit

end
end

