-- ==== Sys2Proof/Laws/State.lean ====
section
/-! SUPPORT. What each update of the state leaves in each field. -/

namespace Sys2Proof.Machine

variable (s : State)

/-! ### `State.setLink` -/

@[simp] theorem State.setLink_kind (l : Link) : (s.setLink l).kind = s.kind := rfl

@[simp] theorem State.setLink_handleW (l : Link) : (s.setLink l).handleW = s.handleW := rfl

@[simp] theorem State.setLink_link (l : Link) : (s.setLink l).link = l := rfl

@[simp] theorem State.setLink_tidCtr (l : Link) : (s.setLink l).tidCtr = s.tidCtr := rfl

@[simp] theorem State.setLink_rxbuf (l : Link) : (s.setLink l).rxbuf = s.rxbuf := rfl

@[simp] theorem State.setLink_rxlen (l : Link) : (s.setLink l).rxlen = s.rxlen := rfl

@[simp] theorem State.setLink_rxDiscard (l : Link) : (s.setLink l).rxDiscard = s.rxDiscard := rfl

@[simp] theorem State.setLink_lineQuiet (l : Link) : (s.setLink l).lineQuiet = s.lineQuiet := rfl

@[simp] theorem State.setLink_crc (l : Link) : (s.setLink l).crc = s.crc := rfl

@[simp] theorem State.setLink_ctxs (l : Link) : (s.setLink l).ctxs = s.ctxs := rfl

@[simp] theorem State.setLink_inbox (l : Link) : (s.setLink l).inbox = s.inbox := rfl

@[simp] theorem State.setLink_out (l : Link) : (s.setLink l).out = s.out := rfl

@[simp] theorem State.setLink_codec (l : Link) : (s.setLink l).codec = s.codec := rfl

/-! ### `State.lineBusy` -/

@[simp] theorem State.lineBusy_kind : (s.lineBusy).kind = s.kind := rfl

@[simp] theorem State.lineBusy_handleW : (s.lineBusy).handleW = s.handleW := rfl

@[simp] theorem State.lineBusy_link : (s.lineBusy).link = s.link := rfl

@[simp] theorem State.lineBusy_tidCtr : (s.lineBusy).tidCtr = s.tidCtr := rfl

@[simp] theorem State.lineBusy_rxbuf : (s.lineBusy).rxbuf = s.rxbuf := rfl

@[simp] theorem State.lineBusy_rxlen : (s.lineBusy).rxlen = s.rxlen := rfl

@[simp] theorem State.lineBusy_rxDiscard : (s.lineBusy).rxDiscard = s.rxDiscard := rfl

@[simp] theorem State.lineBusy_lineQuiet : (s.lineBusy).lineQuiet = false := rfl

@[simp] theorem State.lineBusy_crc : (s.lineBusy).crc = s.crc := rfl

@[simp] theorem State.lineBusy_ctxs : (s.lineBusy).ctxs = s.ctxs := rfl

@[simp] theorem State.lineBusy_inbox : (s.lineBusy).inbox = s.inbox := rfl

@[simp] theorem State.lineBusy_out : (s.lineBusy).out = s.out := rfl

@[simp] theorem State.lineBusy_codec : (s.lineBusy).codec = s.codec := rfl

/-! ### `State.lineSilent` -/

@[simp] theorem State.lineSilent_kind : (s.lineSilent).kind = s.kind := rfl

@[simp] theorem State.lineSilent_handleW : (s.lineSilent).handleW = s.handleW := rfl

@[simp] theorem State.lineSilent_link : (s.lineSilent).link = s.link := rfl

@[simp] theorem State.lineSilent_tidCtr : (s.lineSilent).tidCtr = s.tidCtr := rfl

@[simp] theorem State.lineSilent_rxbuf : (s.lineSilent).rxbuf = s.rxbuf := rfl

@[simp] theorem State.lineSilent_rxlen : (s.lineSilent).rxlen = s.rxlen := rfl

@[simp] theorem State.lineSilent_rxDiscard : (s.lineSilent).rxDiscard = s.rxDiscard := rfl

@[simp] theorem State.lineSilent_lineQuiet : (s.lineSilent).lineQuiet = true := rfl

@[simp] theorem State.lineSilent_crc : (s.lineSilent).crc = s.crc := rfl

@[simp] theorem State.lineSilent_ctxs : (s.lineSilent).ctxs = s.ctxs := rfl

@[simp] theorem State.lineSilent_inbox : (s.lineSilent).inbox = s.inbox := rfl

@[simp] theorem State.lineSilent_out : (s.lineSilent).out = s.out := rfl

@[simp] theorem State.lineSilent_codec : (s.lineSilent).codec = s.codec := rfl

/-! ### `State.startDiscard` -/

@[simp] theorem State.startDiscard_kind : (s.startDiscard).kind = s.kind := rfl

@[simp] theorem State.startDiscard_handleW : (s.startDiscard).handleW = s.handleW := rfl

@[simp] theorem State.startDiscard_link : (s.startDiscard).link = s.link := rfl

@[simp] theorem State.startDiscard_tidCtr : (s.startDiscard).tidCtr = s.tidCtr := rfl

@[simp] theorem State.startDiscard_rxbuf : (s.startDiscard).rxbuf = s.rxbuf := rfl

@[simp] theorem State.startDiscard_rxlen : (s.startDiscard).rxlen = s.rxlen := rfl

@[simp] theorem State.startDiscard_rxDiscard : (s.startDiscard).rxDiscard = !s.lineQuiet := rfl

@[simp] theorem State.startDiscard_lineQuiet : (s.startDiscard).lineQuiet = s.lineQuiet := rfl

@[simp] theorem State.startDiscard_crc : (s.startDiscard).crc = s.crc := rfl

@[simp] theorem State.startDiscard_ctxs : (s.startDiscard).ctxs = s.ctxs := rfl

@[simp] theorem State.startDiscard_inbox : (s.startDiscard).inbox = s.inbox := rfl

@[simp] theorem State.startDiscard_out : (s.startDiscard).out = s.out := rfl

@[simp] theorem State.startDiscard_codec : (s.startDiscard).codec = s.codec := rfl

/-! ### `State.endDiscard` -/

@[simp] theorem State.endDiscard_kind : (s.endDiscard).kind = s.kind := rfl

@[simp] theorem State.endDiscard_handleW : (s.endDiscard).handleW = s.handleW := rfl

@[simp] theorem State.endDiscard_link : (s.endDiscard).link = s.link := rfl

@[simp] theorem State.endDiscard_tidCtr : (s.endDiscard).tidCtr = s.tidCtr := rfl

@[simp] theorem State.endDiscard_rxbuf : (s.endDiscard).rxbuf = s.rxbuf := rfl

@[simp] theorem State.endDiscard_rxlen : (s.endDiscard).rxlen = s.rxlen := rfl

@[simp] theorem State.endDiscard_rxDiscard : (s.endDiscard).rxDiscard = false := rfl

@[simp] theorem State.endDiscard_lineQuiet : (s.endDiscard).lineQuiet = s.lineQuiet := rfl

@[simp] theorem State.endDiscard_crc : (s.endDiscard).crc = s.crc := rfl

@[simp] theorem State.endDiscard_ctxs : (s.endDiscard).ctxs = s.ctxs := rfl

@[simp] theorem State.endDiscard_inbox : (s.endDiscard).inbox = s.inbox := rfl

@[simp] theorem State.endDiscard_out : (s.endDiscard).out = s.out := rfl

@[simp] theorem State.endDiscard_codec : (s.endDiscard).codec = s.codec := rfl

/-! ### `State.bufAppend` -/

@[simp] theorem State.bufAppend_kind (b : Byte) : (s.bufAppend b).kind = s.kind := rfl

@[simp] theorem State.bufAppend_handleW (b : Byte) : (s.bufAppend b).handleW = s.handleW := rfl

@[simp] theorem State.bufAppend_link (b : Byte) : (s.bufAppend b).link = s.link := rfl

@[simp] theorem State.bufAppend_tidCtr (b : Byte) : (s.bufAppend b).tidCtr = s.tidCtr := rfl

@[simp] theorem State.bufAppend_rxbuf (b : Byte) : (s.bufAppend b).rxbuf = Memory.write s.rxbuf s.rxlen b := rfl

@[simp] theorem State.bufAppend_rxlen (b : Byte) : (s.bufAppend b).rxlen = s.rxlen + 1 := rfl

@[simp] theorem State.bufAppend_rxDiscard (b : Byte) : (s.bufAppend b).rxDiscard = s.rxDiscard := rfl

@[simp] theorem State.bufAppend_lineQuiet (b : Byte) : (s.bufAppend b).lineQuiet = s.lineQuiet := rfl

@[simp] theorem State.bufAppend_crc (b : Byte) : (s.bufAppend b).crc = s.crc := rfl

@[simp] theorem State.bufAppend_ctxs (b : Byte) : (s.bufAppend b).ctxs = s.ctxs := rfl

@[simp] theorem State.bufAppend_inbox (b : Byte) : (s.bufAppend b).inbox = s.inbox := rfl

@[simp] theorem State.bufAppend_out (b : Byte) : (s.bufAppend b).out = s.out := rfl

@[simp] theorem State.bufAppend_codec (b : Byte) : (s.bufAppend b).codec = s.codec := rfl

/-! ### `State.bufClear` -/

@[simp] theorem State.bufClear_kind : (s.bufClear).kind = s.kind := rfl

@[simp] theorem State.bufClear_handleW : (s.bufClear).handleW = s.handleW := rfl

@[simp] theorem State.bufClear_link : (s.bufClear).link = s.link := rfl

@[simp] theorem State.bufClear_tidCtr : (s.bufClear).tidCtr = s.tidCtr := rfl

@[simp] theorem State.bufClear_rxbuf : (s.bufClear).rxbuf = s.rxbuf := rfl

@[simp] theorem State.bufClear_rxlen : (s.bufClear).rxlen = 0 := rfl

@[simp] theorem State.bufClear_rxDiscard : (s.bufClear).rxDiscard = s.rxDiscard := rfl

@[simp] theorem State.bufClear_lineQuiet : (s.bufClear).lineQuiet = s.lineQuiet := rfl

@[simp] theorem State.bufClear_crc : (s.bufClear).crc = s.crc := rfl

@[simp] theorem State.bufClear_ctxs : (s.bufClear).ctxs = s.ctxs := rfl

@[simp] theorem State.bufClear_inbox : (s.bufClear).inbox = s.inbox := rfl

@[simp] theorem State.bufClear_out : (s.bufClear).out = s.out := rfl

@[simp] theorem State.bufClear_codec : (s.bufClear).codec = s.codec := rfl

/-! ### `State.begin` -/

@[simp] theorem State.begin_kind : (s.begin).kind = s.kind := rfl

@[simp] theorem State.begin_handleW : (s.begin).handleW = s.handleW := rfl

@[simp] theorem State.begin_link : (s.begin).link = s.link := rfl

@[simp] theorem State.begin_tidCtr : (s.begin).tidCtr = s.tidCtr := rfl

@[simp] theorem State.begin_rxbuf : (s.begin).rxbuf = s.rxbuf := rfl

@[simp] theorem State.begin_rxlen : (s.begin).rxlen = s.rxlen := rfl

@[simp] theorem State.begin_rxDiscard : (s.begin).rxDiscard = s.rxDiscard := rfl

@[simp] theorem State.begin_lineQuiet : (s.begin).lineQuiet = s.lineQuiet := rfl

@[simp] theorem State.begin_crc : (s.begin).crc = s.crc := rfl

@[simp] theorem State.begin_ctxs : (s.begin).ctxs = s.ctxs := rfl

@[simp] theorem State.begin_inbox : (s.begin).inbox = s.inbox := rfl

@[simp] theorem State.begin_out : (s.begin).out = [] := rfl

@[simp] theorem State.begin_codec : (s.begin).codec = .none := rfl

/-! ### `State.emit` -/

@[simp] theorem State.emit_kind (o : Output) : (s.emit o).kind = s.kind := rfl

@[simp] theorem State.emit_handleW (o : Output) : (s.emit o).handleW = s.handleW := rfl

@[simp] theorem State.emit_link (o : Output) : (s.emit o).link = s.link := rfl

@[simp] theorem State.emit_tidCtr (o : Output) : (s.emit o).tidCtr = s.tidCtr := rfl

@[simp] theorem State.emit_rxbuf (o : Output) : (s.emit o).rxbuf = s.rxbuf := rfl

@[simp] theorem State.emit_rxlen (o : Output) : (s.emit o).rxlen = s.rxlen := rfl

@[simp] theorem State.emit_rxDiscard (o : Output) : (s.emit o).rxDiscard = s.rxDiscard := rfl

@[simp] theorem State.emit_lineQuiet (o : Output) : (s.emit o).lineQuiet = s.lineQuiet := rfl

@[simp] theorem State.emit_crc (o : Output) : (s.emit o).crc = s.crc := rfl

@[simp] theorem State.emit_ctxs (o : Output) : (s.emit o).ctxs = s.ctxs := rfl

@[simp] theorem State.emit_inbox (o : Output) : (s.emit o).inbox = s.inbox := rfl

@[simp] theorem State.emit_out (o : Output) : (s.emit o).out = s.out ++ [o] := rfl

@[simp] theorem State.emit_codec (o : Output) : (s.emit o).codec = s.codec := rfl

/-! ### `State.modCtx` -/

@[simp] theorem State.modCtx_kind (i : Nat) (f : Ctx → Ctx) : (s.modCtx i f).kind = s.kind := rfl

@[simp] theorem State.modCtx_handleW (i : Nat) (f : Ctx → Ctx) : (s.modCtx i f).handleW = s.handleW := rfl

@[simp] theorem State.modCtx_link (i : Nat) (f : Ctx → Ctx) : (s.modCtx i f).link = s.link := rfl

@[simp] theorem State.modCtx_tidCtr (i : Nat) (f : Ctx → Ctx) : (s.modCtx i f).tidCtr = s.tidCtr := rfl

@[simp] theorem State.modCtx_rxbuf (i : Nat) (f : Ctx → Ctx) : (s.modCtx i f).rxbuf = s.rxbuf := rfl

@[simp] theorem State.modCtx_rxlen (i : Nat) (f : Ctx → Ctx) : (s.modCtx i f).rxlen = s.rxlen := rfl

@[simp] theorem State.modCtx_rxDiscard (i : Nat) (f : Ctx → Ctx) : (s.modCtx i f).rxDiscard = s.rxDiscard := rfl

@[simp] theorem State.modCtx_lineQuiet (i : Nat) (f : Ctx → Ctx) : (s.modCtx i f).lineQuiet = s.lineQuiet := rfl

@[simp] theorem State.modCtx_crc (i : Nat) (f : Ctx → Ctx) : (s.modCtx i f).crc = s.crc := rfl

@[simp] theorem State.modCtx_ctxs (i : Nat) (f : Ctx → Ctx) : (s.modCtx i f).ctxs = s.ctxs.modify i f := rfl

@[simp] theorem State.modCtx_inbox (i : Nat) (f : Ctx → Ctx) : (s.modCtx i f).inbox = s.inbox := rfl

@[simp] theorem State.modCtx_out (i : Nat) (f : Ctx → Ctx) : (s.modCtx i f).out = s.out := rfl

@[simp] theorem State.modCtx_codec (i : Nat) (f : Ctx → Ctx) : (s.modCtx i f).codec = s.codec := rfl

/-! ### `State.setPhase` -/

@[simp] theorem State.setPhase_kind (i : Nat) (p : Phase) : (s.setPhase i p).kind = s.kind := rfl

@[simp] theorem State.setPhase_handleW (i : Nat) (p : Phase) : (s.setPhase i p).handleW = s.handleW := rfl

@[simp] theorem State.setPhase_link (i : Nat) (p : Phase) : (s.setPhase i p).link = s.link := rfl

@[simp] theorem State.setPhase_tidCtr (i : Nat) (p : Phase) : (s.setPhase i p).tidCtr = s.tidCtr := rfl

@[simp] theorem State.setPhase_rxbuf (i : Nat) (p : Phase) : (s.setPhase i p).rxbuf = s.rxbuf := rfl

@[simp] theorem State.setPhase_rxlen (i : Nat) (p : Phase) : (s.setPhase i p).rxlen = s.rxlen := rfl

@[simp] theorem State.setPhase_rxDiscard (i : Nat) (p : Phase) : (s.setPhase i p).rxDiscard = s.rxDiscard := rfl

@[simp] theorem State.setPhase_lineQuiet (i : Nat) (p : Phase) : (s.setPhase i p).lineQuiet = s.lineQuiet := rfl

@[simp] theorem State.setPhase_crc (i : Nat) (p : Phase) : (s.setPhase i p).crc = s.crc := rfl

@[simp] theorem State.setPhase_ctxs (i : Nat) (p : Phase) : (s.setPhase i p).ctxs = s.ctxs.modify i fun c => { c with phase := p } := rfl

@[simp] theorem State.setPhase_inbox (i : Nat) (p : Phase) : (s.setPhase i p).inbox = s.inbox := rfl

@[simp] theorem State.setPhase_out (i : Nat) (p : Phase) : (s.setPhase i p).out = s.out := rfl

@[simp] theorem State.setPhase_codec (i : Nat) (p : Phase) : (s.setPhase i p).codec = s.codec := rfl

/-! ### `State.enterPhase` -/

@[simp] theorem State.enterPhase_kind (i : Nat) (p : Phase) : (s.enterPhase i p).kind = s.kind := rfl

@[simp] theorem State.enterPhase_handleW (i : Nat) (p : Phase) : (s.enterPhase i p).handleW = s.handleW := rfl

@[simp] theorem State.enterPhase_link (i : Nat) (p : Phase) : (s.enterPhase i p).link = s.link := rfl

@[simp] theorem State.enterPhase_tidCtr (i : Nat) (p : Phase) : (s.enterPhase i p).tidCtr = s.tidCtr := rfl

@[simp] theorem State.enterPhase_rxbuf (i : Nat) (p : Phase) : (s.enterPhase i p).rxbuf = s.rxbuf := rfl

@[simp] theorem State.enterPhase_rxlen (i : Nat) (p : Phase) : (s.enterPhase i p).rxlen = s.rxlen := rfl

@[simp] theorem State.enterPhase_rxDiscard (i : Nat) (p : Phase) : (s.enterPhase i p).rxDiscard = s.rxDiscard := rfl

@[simp] theorem State.enterPhase_lineQuiet (i : Nat) (p : Phase) : (s.enterPhase i p).lineQuiet = s.lineQuiet := rfl

@[simp] theorem State.enterPhase_crc (i : Nat) (p : Phase) : (s.enterPhase i p).crc = s.crc := rfl

@[simp] theorem State.enterPhase_ctxs (i : Nat) (p : Phase) : (s.enterPhase i p).ctxs = s.ctxs.modify i fun c => { c with phase := p, timer := 0 } := rfl

@[simp] theorem State.enterPhase_inbox (i : Nat) (p : Phase) : (s.enterPhase i p).inbox = s.inbox := rfl

@[simp] theorem State.enterPhase_out (i : Nat) (p : Phase) : (s.enterPhase i p).out = s.out := rfl

@[simp] theorem State.enterPhase_codec (i : Nat) (p : Phase) : (s.enterPhase i p).codec = s.codec := rfl

/-! ### `State.setTxn` -/

@[simp] theorem State.setTxn_kind (i : Nat) (t : Txn) : (s.setTxn i t).kind = s.kind := rfl

@[simp] theorem State.setTxn_handleW (i : Nat) (t : Txn) : (s.setTxn i t).handleW = s.handleW := rfl

@[simp] theorem State.setTxn_link (i : Nat) (t : Txn) : (s.setTxn i t).link = s.link := rfl

@[simp] theorem State.setTxn_tidCtr (i : Nat) (t : Txn) : (s.setTxn i t).tidCtr = s.tidCtr := rfl

@[simp] theorem State.setTxn_rxbuf (i : Nat) (t : Txn) : (s.setTxn i t).rxbuf = s.rxbuf := rfl

@[simp] theorem State.setTxn_rxlen (i : Nat) (t : Txn) : (s.setTxn i t).rxlen = s.rxlen := rfl

@[simp] theorem State.setTxn_rxDiscard (i : Nat) (t : Txn) : (s.setTxn i t).rxDiscard = s.rxDiscard := rfl

@[simp] theorem State.setTxn_lineQuiet (i : Nat) (t : Txn) : (s.setTxn i t).lineQuiet = s.lineQuiet := rfl

@[simp] theorem State.setTxn_crc (i : Nat) (t : Txn) : (s.setTxn i t).crc = s.crc := rfl

@[simp] theorem State.setTxn_ctxs (i : Nat) (t : Txn) : (s.setTxn i t).ctxs = s.ctxs.modify i fun c => { c with txn := t } := rfl

@[simp] theorem State.setTxn_inbox (i : Nat) (t : Txn) : (s.setTxn i t).inbox = s.inbox := rfl

@[simp] theorem State.setTxn_out (i : Nat) (t : Txn) : (s.setTxn i t).out = s.out := rfl

@[simp] theorem State.setTxn_codec (i : Nat) (t : Txn) : (s.setTxn i t).codec = s.codec := rfl

/-! ### `State.crcInit` -/

@[simp] theorem State.crcInit_kind : (s.crcInit).kind = s.kind := rfl

@[simp] theorem State.crcInit_handleW : (s.crcInit).handleW = s.handleW := rfl

@[simp] theorem State.crcInit_link : (s.crcInit).link = s.link := rfl

@[simp] theorem State.crcInit_tidCtr : (s.crcInit).tidCtr = s.tidCtr := rfl

@[simp] theorem State.crcInit_rxbuf : (s.crcInit).rxbuf = s.rxbuf := rfl

@[simp] theorem State.crcInit_rxlen : (s.crcInit).rxlen = s.rxlen := rfl

@[simp] theorem State.crcInit_rxDiscard : (s.crcInit).rxDiscard = s.rxDiscard := rfl

@[simp] theorem State.crcInit_lineQuiet : (s.crcInit).lineQuiet = s.lineQuiet := rfl

@[simp] theorem State.crcInit_crc : (s.crcInit).crc = 0xFFFF := rfl

@[simp] theorem State.crcInit_ctxs : (s.crcInit).ctxs = s.ctxs := rfl

@[simp] theorem State.crcInit_inbox : (s.crcInit).inbox = s.inbox := rfl

@[simp] theorem State.crcInit_out : (s.crcInit).out = s.out := rfl

@[simp] theorem State.crcInit_codec : (s.crcInit).codec = s.codec := rfl

/-! ### `State.crcUpdate` -/

@[simp] theorem State.crcUpdate_kind (b : Byte) : (s.crcUpdate b).kind = s.kind := rfl

@[simp] theorem State.crcUpdate_handleW (b : Byte) : (s.crcUpdate b).handleW = s.handleW := rfl

@[simp] theorem State.crcUpdate_link (b : Byte) : (s.crcUpdate b).link = s.link := rfl

@[simp] theorem State.crcUpdate_tidCtr (b : Byte) : (s.crcUpdate b).tidCtr = s.tidCtr := rfl

@[simp] theorem State.crcUpdate_rxbuf (b : Byte) : (s.crcUpdate b).rxbuf = s.rxbuf := rfl

@[simp] theorem State.crcUpdate_rxlen (b : Byte) : (s.crcUpdate b).rxlen = s.rxlen := rfl

@[simp] theorem State.crcUpdate_rxDiscard (b : Byte) : (s.crcUpdate b).rxDiscard = s.rxDiscard := rfl

@[simp] theorem State.crcUpdate_lineQuiet (b : Byte) : (s.crcUpdate b).lineQuiet = s.lineQuiet := rfl

@[simp] theorem State.crcUpdate_crc (b : Byte) : (s.crcUpdate b).crc = crcUpdateByte s.crc b := rfl

@[simp] theorem State.crcUpdate_ctxs (b : Byte) : (s.crcUpdate b).ctxs = s.ctxs := rfl

@[simp] theorem State.crcUpdate_inbox (b : Byte) : (s.crcUpdate b).inbox = s.inbox := rfl

@[simp] theorem State.crcUpdate_out (b : Byte) : (s.crcUpdate b).out = s.out := rfl

@[simp] theorem State.crcUpdate_codec (b : Byte) : (s.crcUpdate b).codec = s.codec := rfl

end Sys2Proof.Machine
end

