-- ==== Sys2Proof/Laws/Memory.lean ====
section
/-! SUPPORT. The byte store: read after write, the canonical form, and the reassembly buffer as a sequence of bytes. -/

namespace Sys2Proof.Machine

theorem Memory.read_write_same (m : Memory) (a : Nat) (b : Byte) (lo : Nat) (h : Memory.wfFrom lo m = true) :
    (m.write a b).read a = b := by
  induction m generalizing lo with
  | nil =>
    by_cases hb : b = Memory.unlisted
    · simp [Memory.write, Memory.read, hb]
    · simp [Memory.write, Memory.read, hb]
  | cons p m ih =>
    obtain ⟨k, c⟩ := p
    simp only [Memory.wfFrom, Bool.and_eq_true, decide_eq_true_eq] at h
    have gone : ∀ (m : Memory) (lo : Nat), Memory.wfFrom lo m = true → a < lo → m.read a = Memory.unlisted := by
      intro m
      induction m with
      | nil => intros; rfl
      | cons q m ih' =>
        obtain ⟨k', c'⟩ := q
        intro lo hm hlt
        simp only [Memory.wfFrom, Bool.and_eq_true, decide_eq_true_eq] at hm
        rw [Memory.read, if_neg (by omega)]
        exact ih' _ hm.2 (by omega)
    unfold Memory.write
    split
    · split
      · rename_i hlt hb
        rw [Memory.read, if_neg (by omega), hb]
        exact gone m _ h.2 (by omega)
      · simp [Memory.read]
    · split
      · split
        · rename_i hk hb
          rw [hb]
          exact gone m _ h.2 (by omega)
        · simp [Memory.read]
      · rw [Memory.read, if_neg (by omega)]
        exact ih _ h.2

theorem Memory.read_write_other (m : Memory) (a a' : Nat) (b : Byte) (h : a' ≠ a) :
    (m.write a b).read a' = m.read a' := by
  have ha : ¬ a = a' := fun e => h e.symm
  induction m with
  | nil => unfold Memory.write; split <;> simp [Memory.read, ha]
  | cons p m ih =>
    obtain ⟨k, c⟩ := p
    unfold Memory.write
    split
    · split <;> simp [Memory.read, ha]
    · split
      · rename_i hk
        subst hk
        split <;> simp [Memory.read, ha]
      · simp [Memory.read, ih]

theorem Memory.wfFrom_mono (m : Memory) (lo lo' : Nat) (h : lo' ≤ lo) (hm : Memory.wfFrom lo m = true) :
    Memory.wfFrom lo' m = true := by
  cases m with
  | nil => rfl
  | cons p m =>
    simp only [Memory.wfFrom, Bool.and_eq_true, decide_eq_true_eq] at hm ⊢
    exact ⟨⟨by omega, hm.1.2⟩, hm.2⟩

theorem Memory.wfFrom_write (m : Memory) (lo a : Nat) (b : Byte) (ha : lo ≤ a) (hm : Memory.wfFrom lo m = true) :
    Memory.wfFrom lo (m.write a b) = true := by
  induction m generalizing lo with
  | nil =>
    unfold Memory.write
    split
    · rfl
    · rename_i hb
      simp [Memory.wfFrom, ha, hb]
  | cons p m ih =>
    obtain ⟨k, c⟩ := p
    simp only [Memory.wfFrom, Bool.and_eq_true, decide_eq_true_eq] at hm
    unfold Memory.write
    split
    · split
      · simp [Memory.wfFrom, hm]
      · rename_i hlt hb
        simp [Memory.wfFrom, ha, hb, hm, Nat.succ_le_of_lt hlt]
    · split
      · rename_i hk
        split
        · exact Memory.wfFrom_mono m (k + 1) lo (by omega) hm.2
        · rename_i hb
          subst hk
          simp [Memory.wfFrom, ha, hb, hm.2]
      · simp only [Memory.wfFrom, Bool.and_eq_true, decide_eq_true_eq]
        exact ⟨hm.1, ih (k + 1) (by omega) hm.2⟩

/-- A write keeps the canonical form. -/
theorem Memory.wf_write (m : Memory) (a : Nat) (b : Byte) (hm : m.wf = true) : (m.write a b).wf = true :=
  Memory.wfFrom_write m 0 a b (by omega) hm

/-- Every operation on the buffer keeps the canonical form. -/
theorem State.bufAppend_wf (b : Byte) (s : State) (h : s.rxbuf.wf = true) : (s.bufAppend b).rxbuf.wf = true :=
  Memory.wf_write _ _ _ h

theorem State.bufClear_wf (s : State) (h : s.rxbuf.wf = true) : (s.bufClear).rxbuf.wf = true := h

/-- The reset store is canonical: nothing is listed. -/
theorem State.resetOf_rxbuf_wf (p : Params) : (State.resetOf p).rxbuf.wf = true := rfl

theorem State.bufBytes_length (s : State) : s.bufBytes.length = s.rxlen := by
  simp [State.bufBytes, State.memRead]

/-- The bytes under reassembly depend only on the store and the fill count. -/
theorem State.bufBytes_congr {s t : State} (h1 : t.rxbuf = s.rxbuf) (h2 : t.rxlen = s.rxlen) :
    t.bufBytes = s.bufBytes := by
  simp [State.bufBytes, State.memRead, h1, h2]

theorem State.bufClear_bufBytes (s : State) : (s.bufClear).bufBytes = [] := by
  simp [State.bufBytes, State.memRead]

/-- An append adds its byte at the end of the bytes under reassembly (R201). -/
theorem State.bufAppend_bufBytes (b : Byte) (s : State) (h : s.rxbuf.wf = true) :
    (s.bufAppend b).bufBytes = s.bufBytes ++ [b] := by
  have hb : Memory.read (Memory.write s.rxbuf s.rxlen b) s.rxlen = b := Memory.read_write_same _ _ _ 0 h
  have ho : ∀ k ∈ List.range s.rxlen,
      Memory.read (Memory.write s.rxbuf s.rxlen b) (0 + k) = Memory.read s.rxbuf (0 + k) := by
    intro k hk
    have := List.mem_range.mp hk
    exact Memory.read_write_other _ _ _ _ (by omega)
  simp only [State.bufBytes, State.memRead, State.bufAppend_rxbuf, State.bufAppend_rxlen, List.range_succ,
    List.map_append, List.map_cons, List.map_nil, Nat.zero_add, hb]
  congr 1
  apply List.map_congr_left
  intro k hk
  simpa using ho k hk

end Sys2Proof.Machine
end

