-- ==== Sys2Proof/Laws/Ops.lean ====
section
/-! SUPPORT. What each shared operation does, said once: contexts, the CRC generator, the registry and the engine's shared
procedures, each as one update of the state. -/

namespace Sys2Proof.Machine

/-! ### Contexts -/

theorem State.ctx_eq_of_getElem? {s : State} {i : Nat} {c : Ctx} (h : s.ctxs[i]? = some c) : s.ctx i = c := by
  simp [State.ctx, List.getD_eq_getElem?_getD, h]

theorem State.getElem?_ctx {s : State} {i : Nat} (h : i < s.ctxs.length) : s.ctxs[i]? = some (s.ctx i) := by
  simp [State.ctx, h]

@[simp] theorem State.ctx_modCtx_same (s : State) (i : Nat) (f : Ctx → Ctx) (h : i < s.ctxs.length) :
    (s.modCtx i f).ctx i = f (s.ctx i) := by
  simp [State.ctx, h]

theorem State.ctx_modCtx_other (s : State) (i j : Nat) (f : Ctx → Ctx) (h : j ≠ i) :
    (s.modCtx i f).ctx j = s.ctx j := by
  simp [State.ctx, List.getD_eq_getElem?_getD, Ne.symm h]

theorem State.length_modCtx (s : State) (i : Nat) (f : Ctx → Ctx) : (s.modCtx i f).ctxs.length = s.ctxs.length := by
  simp

theorem State.modCtx_modCtx (s : State) (i : Nat) (f g : Ctx → Ctx) :
    (s.modCtx i f).modCtx i g = s.modCtx i fun c => g (f c) := by
  simp only [State.modCtx, List.modify_modify_eq]
  rfl

/-- An update that agrees with another at the context it meets is the same update. -/
theorem State.modCtx_congr (s : State) (i : Nat) (f g : Ctx → Ctx) (h : f (s.ctx i) = g (s.ctx i)) :
    s.modCtx i f = s.modCtx i g := by
  have : s.ctxs.modify i f = s.ctxs.modify i g := by
    apply List.ext_getElem?
    intro k
    by_cases hk : i = k
    · subst hk
      cases hc : s.ctxs[i]? with
      | none => simp [hc]
      | some c =>
        rw [State.ctx_eq_of_getElem? hc] at h
        simp [hc, h]
    · simp [hk]
  simp [State.modCtx, this]

/-- What holds at the start and is kept by each context's turn holds at the end of a loop over the contexts (R20). -/
theorem State.forCtx_induct (P : State → Prop) (f : Nat → State → State) (s : State) (h0 : P s)
    (hstep : ∀ i t, i < s.ctxs.length → P t → P (f i t)) : P (s.forCtx f) := by
  have key : ∀ (l : List Nat) (t : State), (∀ i ∈ l, i < s.ctxs.length) → P t → P (l.foldl (fun t i => f i t) t) := by
    intro l
    induction l with
    | nil => intro t _ ht; exact ht
    | cons i l ih =>
      intro t hl ht
      exact ih _ (fun j hj => hl j (by simp [hj])) (hstep i t (hl i (by simp)) ht)
  exact key _ s (fun i hi => List.mem_range.mp hi) h0

/-! ### The CRC generator -/

theorem State.crcUpdate_foldl (l : List Byte) (s : State) :
    l.foldl (fun t b => State.crcUpdate b t) s = { s with crc := l.foldl crcUpdateByte s.crc } := by
  induction l generalizing s with
  | nil => rfl
  | cons b l ih => rw [List.foldl_cons, ih]; rfl

/-! ### The registry -/

/-- `register!` on TCP (R233): the allocated id. -/
theorem registerTxn_tcp (i : Nat) (s : State) (hk : s.kind = .tcp) :
    registerTxn i s =
      { s.modCtx i fun c => { c with tid := s.nextTid, txn := .pending } with tidCtr := s.nextTid + 1 } := by
  unfold registerTxn
  split
  · rfl
  · rename_i h
    rw [hk] at h
    cases h

/-- `register!` on RTU (R233): id 0. -/
theorem registerTxn_rtu (i : Nat) (s : State) (hk : s.kind = .rtu) :
    registerTxn i s = s.modCtx i fun c => { c with tid := 0, txn := .pending } := by
  unfold registerTxn
  split
  · rename_i h
    rw [hk] at h
    cases h
  · rfl

/-- Every transition out of Pending ends with no transaction (R236). -/
theorem resolveCompleted_eq (i : Nat) (s : State) :
    resolveCompleted i s = s.modCtx i fun c => { c with txn := .none } := by
  simp only [resolveCompleted, State.setTxn, State.modCtx_modCtx]

theorem resolveFailed_eq (i : Nat) (s : State) : resolveFailed i s = s.modCtx i fun c => { c with txn := .none } := by
  simp only [resolveFailed, State.setTxn, State.modCtx_modCtx]

theorem expireTxn_eq (i : Nat) (s : State) : expireTxn i s = s.modCtx i fun c => { c with txn := .none } := by
  simp only [expireTxn, State.setTxn, State.modCtx_modCtx]

/-- `cancel_txn!` clears a Pending transaction and no other (R238). -/
theorem cancelTxn_eq (i : Nat) (s : State) :
    cancelTxn i s = s.modCtx i fun c => { c with txn := if c.txn = .pending then .none else c.txn } := by
  unfold cancelTxn
  split
  · rename_i h
    simp only [State.setTxn, State.modCtx_modCtx]
    exact State.modCtx_congr _ _ _ _ (by simp [h])
  · rename_i h
    rw [State.modCtx_congr s i _ id (by simp [h])]
    have : s.ctxs.modify i id = s.ctxs := by
      apply List.ext_getElem?
      intro k
      by_cases hk : i = k <;> simp [hk]
    simp [State.modCtx, this]

/-! ### The engine's procedures -/

/-- `sending!` with the session open on TCP (R261): the id is allocated and the frame sent. -/
theorem transmit_tcp (i : Nat) (s : State) (hk : s.kind = .tcp) (h : i < s.ctxs.length) :
    transmit i s =
      { s with
        tidCtr := s.nextTid + 1
        out := s.out ++ [.txFrame (encodeFrame (s.ctx i).req .tcp s.nextTid)]
        ctxs := s.ctxs.modify i fun c =>
          { c with tid := s.nextTid, txn := .pending, phase := .awaitingResponse, timer := 0 } } := by
  have hkind : (registerTxn i s).kind = .tcp := by simp [registerTxn_tcp i s hk, hk]
  have hc : (registerTxn i s).frameOf i = encodeFrame (s.ctx i).req .tcp s.nextTid := by
    have : (registerTxn i s).ctx i = { s.ctx i with tid := s.nextTid, txn := .pending } := by
      rw [registerTxn_tcp i s hk]
      exact State.ctx_modCtx_same s i _ h
    unfold State.frameOf
    rw [this, hkind]
  simp only [transmit, sendFrame, hkind, hc]
  rw [registerTxn_tcp i s hk]
  simp only [State.enterPhase, State.emit, State.modCtx, List.modify_modify_eq]
  rfl

/-- `sending!` with the session open and no resync on RTU (R261): the buffer is cleared, the frame sent. -/
theorem transmit_rtu (i : Nat) (s : State) (hk : s.kind = .rtu) (h : i < s.ctxs.length) :
    transmit i s =
      { s with
        rxlen := 0
        out := s.out ++ [.txFrame (encodeFrame (s.ctx i).req .rtu 0)]
        ctxs := s.ctxs.modify i fun c =>
          { c with tid := 0, txn := .pending, phase := .awaitingResponse, timer := 0 } } := by
  have hkind : (registerTxn i s).kind = .rtu := by simp [registerTxn_rtu i s hk, hk]
  have hc : (registerTxn i s).frameOf i = encodeFrame (s.ctx i).req .rtu 0 := by
    have : (registerTxn i s).ctx i = { s.ctx i with tid := 0, txn := .pending } := by
      rw [registerTxn_rtu i s hk]
      exact State.ctx_modCtx_same s i _ h
    unfold State.frameOf
    rw [this, hkind]
  simp only [transmit, sendFrame, hkind, hc]
  rw [registerTxn_rtu i s hk]
  simp only [State.enterPhase, State.emit, State.bufClear, State.modCtx, List.modify_modify_eq]
  rfl

/-! The branch `sending!` takes (R261) is chosen by the session's state. -/

theorem sendAttempt_of_down (i : Nat) (s : State) (hl : s.link = .down) :
    sendAttempt i s = (((s.setPhase i .sending).emit .reqOpen).setLink .opening).enterPhase i .linkWait := by
  have h' : (s.setPhase i .sending).link = .down := hl
  simp only [sendAttempt]
  split
  · rfl
  · rename_i h; rw [h'] at h; cases h
  · rename_i h; rw [h'] at h; cases h

theorem sendAttempt_of_opening (i : Nat) (s : State) (hl : s.link = .opening) :
    sendAttempt i s = (s.setPhase i .sending).enterPhase i .linkWait := by
  have h' : (s.setPhase i .sending).link = .opening := hl
  simp only [sendAttempt]
  split
  · rename_i h; rw [h'] at h; cases h
  · rfl
  · rename_i h; rw [h'] at h; cases h

theorem sendAttempt_of_up (i : Nat) (s : State) (hl : s.link = .up) :
    sendAttempt i s =
      if s.kind = .rtu ∧ s.rxDiscard = true then (s.setPhase i .sending).enterPhase i .resyncWait
      else transmit i (s.setPhase i .sending) := by
  have h' : (s.setPhase i .sending).link = .up := hl
  simp only [sendAttempt]
  split
  · rename_i h; rw [h'] at h; cases h
  · rename_i h; rw [h'] at h; cases h
  · rfl

/-- `sending!` with the session closed (R261): REQ_OPEN, and the context waits for the session. -/
theorem sendAttempt_down (i : Nat) (s : State) (hl : s.link = .down) :
    sendAttempt i s =
      { s with
        link := .opening
        out := s.out ++ [.reqOpen]
        ctxs := s.ctxs.modify i fun c => { c with phase := .linkWait, timer := 0 } } := by
  rw [sendAttempt_of_down i s hl]
  simp only [State.enterPhase, State.emit, State.setLink, State.setPhase, State.modCtx, List.modify_modify_eq]
  rfl

/-- `sending!` with the session opening (R261): no second REQ_OPEN. -/
theorem sendAttempt_opening (i : Nat) (s : State) (hl : s.link = .opening) :
    sendAttempt i s =
      { s with ctxs := s.ctxs.modify i fun c => { c with phase := .linkWait, timer := 0 } } := by
  rw [sendAttempt_of_opening i s hl]
  simp only [State.enterPhase, State.setPhase, State.modCtx, List.modify_modify_eq]
  rfl

/-- `sending!` during an RTU resync (R261): the context waits for the silence window. -/
theorem sendAttempt_resync (i : Nat) (s : State) (hl : s.link = .up) (hk : s.kind = .rtu) (hd : s.rxDiscard = true) :
    sendAttempt i s =
      { s with ctxs := s.ctxs.modify i fun c => { c with phase := .resyncWait, timer := 0 } } := by
  rw [sendAttempt_of_up i s hl, if_pos (by simp [hk, hd])]
  simp only [State.enterPhase, State.setPhase, State.modCtx, List.modify_modify_eq]
  rfl

/-- The ids in use do not depend on the phases. -/
theorem State.nextTid_setPhase (i : Nat) (p : Phase) (s : State) : (s.setPhase i p).nextTid = s.nextTid := by
  have hp : ∀ t, (s.setPhase i p).tidPending t = s.tidPending t := by
    intro t
    simp only [State.tidPending, State.setPhase_ctxs, List.any_eq, decide_eq_decide]
    constructor
    · rintro ⟨c, hc, hx⟩
      obtain ⟨k, hk, rfl⟩ := List.mem_iff_getElem.mp hc
      rw [List.getElem_modify] at hx
      refine ⟨s.ctxs[k]'(by simpa using hk), List.getElem_mem _, ?_⟩
      split at hx <;> exact hx
    · rintro ⟨c, hc, hx⟩
      obtain ⟨k, hk, rfl⟩ := List.mem_iff_getElem.mp hc
      refine ⟨(s.ctxs.modify i fun c => { c with phase := p })[k]'(by simpa using hk), List.getElem_mem _, ?_⟩
      rw [List.getElem_modify]
      split <;> exact hx
  have hf : ∀ n t, (s.setPhase i p).freeTid n t = s.freeTid n t := by
    intro n
    induction n with
    | zero => intro t; rfl
    | succ n ih => intro t; simp only [State.freeTid, hp, ih]
  simp only [State.nextTid, State.setPhase_ctxs, List.length_modify, State.setPhase_tidCtr, hf]

/-- `sending!` that transmits (R261) on TCP, as one update. -/
theorem sendAttempt_tcp (i : Nat) (s : State) (hl : s.link = .up) (hk : s.kind = .tcp) (h : i < s.ctxs.length) :
    sendAttempt i s =
      { s with
        tidCtr := s.nextTid + 1
        out := s.out ++ [.txFrame (encodeFrame (s.ctx i).req .tcp s.nextTid)]
        ctxs := s.ctxs.modify i fun c =>
          { c with tid := s.nextTid, txn := .pending, phase := .awaitingResponse, timer := 0 } } := by
  have hc : (s.setPhase i .sending).ctx i = { s.ctx i with phase := .sending } := State.ctx_modCtx_same s i _ h
  have hlen : i < (s.setPhase i .sending).ctxs.length := by simpa using h
  rw [sendAttempt_of_up i s hl, if_neg (by simp [hk]), transmit_tcp i _ (by simp [hk]) hlen, State.nextTid_setPhase, hc]
  simp only [State.setPhase, State.modCtx, List.modify_modify_eq]
  rfl

/-- `sending!` that transmits (R261) on RTU, as one update. -/
theorem sendAttempt_rtu (i : Nat) (s : State) (hl : s.link = .up) (hk : s.kind = .rtu) (hd : s.rxDiscard = false)
    (h : i < s.ctxs.length) :
    sendAttempt i s =
      { s with
        rxlen := 0
        out := s.out ++ [.txFrame (encodeFrame (s.ctx i).req .rtu 0)]
        ctxs := s.ctxs.modify i fun c =>
          { c with tid := 0, txn := .pending, phase := .awaitingResponse, timer := 0 } } := by
  have hc : (s.setPhase i .sending).ctx i = { s.ctx i with phase := .sending } := State.ctx_modCtx_same s i _ h
  have hlen : i < (s.setPhase i .sending).ctxs.length := by simpa using h
  rw [sendAttempt_of_up i s hl, if_neg (by simp [hd]), transmit_rtu i _ (by simp [hk]) hlen, hc]
  simp only [State.setPhase, State.modCtx, List.modify_modify_eq]
  rfl

/-- A context whose attempt failed and is retried (R262): the failure is saved, the transaction destroyed, the retry
counted. -/
def retriedCtx (err : Status) (c : Ctx) : Ctx :=
  { c with
    lastErr := err
    txn := if c.txn = .pending then .none else c.txn
    attempt := c.attempt + 1
    phase := .backoff
    timer := 0 }

/-- A context whose execute ended with its RESULT (R262, R264). -/
def endedCtx (err : Status) (c : Ctx) : Ctx :=
  { c with lastErr := err, txn := .none, phase := .idle, handle := 0, timer := 0 }

theorem attemptFail_prefix (i : Nat) (err : Status) (s : State) (h : i < s.ctxs.length) :
    ((if ((s.setPhase i .retryOrFail).ctx i).txn = .pending then resolveFailed i (s.setPhase i .retryOrFail)
        else s.setPhase i .retryOrFail).modCtx i fun c => { c with lastErr := err }) =
      s.modCtx i fun c =>
        { c with phase := .retryOrFail, txn := if c.txn = .pending then .none else c.txn, lastErr := err } := by
  have hc : (s.setPhase i .retryOrFail).ctx i = { s.ctx i with phase := .retryOrFail } :=
    State.ctx_modCtx_same s i _ h
  rw [hc]
  by_cases hp : (s.ctx i).txn = .pending
  · rw [if_pos hp, resolveFailed_eq, State.setPhase, State.modCtx_modCtx, State.modCtx_modCtx]
    exact State.modCtx_congr _ _ _ _ (by simp [hp])
  · rw [if_neg hp, State.setPhase, State.modCtx_modCtx]
    exact State.modCtx_congr _ _ _ _ (by simp [hp])

/-- The failure entry with no retry left (R262, R310): RESULT with the failure's status, and the context is free. -/
theorem attemptFail_end (i : Nat) (err : Status) (s : State) (h : i < s.ctxs.length)
    (hr : ¬ (retryable err = true ∧ (s.ctx i).attempt < (s.ctx i).cfg.maxRetries)) :
    attemptFail i err s =
      (s.emit (plainResult (s.ctx i).handle err 0)).modCtx i (endedCtx err) := by
  unfold attemptFail
  simp only [attemptFail_prefix i err s h]
  rw [State.ctx_modCtx_same s i _ h, if_neg hr]
  simp only [release, State.emit, State.modCtx, List.modify_modify_eq]
  rfl

/-- The failure entry with a retry left and a backoff (R262): the context rests in Backoff. -/
theorem attemptFail_backoff (i : Nat) (err : Status) (s : State) (h : i < s.ctxs.length)
    (hr : retryable err = true ∧ (s.ctx i).attempt < (s.ctx i).cfg.maxRetries)
    (hb : (s.ctx i).cfg.retryBackoffMs ≠ 0) : attemptFail i err s = s.modCtx i (retriedCtx err) := by
  unfold attemptFail
  simp only [attemptFail_prefix i err s h]
  have hlen : i < (s.modCtx i fun c => { c with
      phase := .retryOrFail, txn := if c.txn = .pending then .none else c.txn, lastErr := err }).ctxs.length := by
    simpa using h
  rw [State.ctx_modCtx_same _ i _ hlen, State.ctx_modCtx_same s i _ h, if_pos hr, if_neg hb, State.modCtx_modCtx]
  rfl

/-- The failure entry with a retry left and no backoff (R262, R312): the retry is sent in the same step. -/
theorem attemptFail_resend (i : Nat) (err : Status) (s : State) (h : i < s.ctxs.length)
    (hr : retryable err = true ∧ (s.ctx i).attempt < (s.ctx i).cfg.maxRetries)
    (hb : (s.ctx i).cfg.retryBackoffMs = 0) :
    attemptFail i err s = sendAttempt i (s.modCtx i (retriedCtx err)) := by
  unfold attemptFail
  simp only [attemptFail_prefix i err s h]
  have hlen : i < (s.modCtx i fun c => { c with
      phase := .retryOrFail, txn := if c.txn = .pending then .none else c.txn, lastErr := err }).ctxs.length := by
    simpa using h
  rw [State.ctx_modCtx_same _ i _ hlen, State.ctx_modCtx_same s i _ h, if_pos hr, if_pos hb, State.modCtx_modCtx]
  rfl

/-- `complete!(i, Good(body))` (R263), as one update. -/
theorem completeGood_eq (i : Nat) (body : Body) (s : State) (h : i < s.ctxs.length) :
    completeGood i body s =
      (s.emit (.result ⟨(s.ctx i).handle, .ok, 0,
        (match s.kind with | .tcp => some (s.ctx i).tid | .rtu => none), some body⟩)).modCtx i fun c =>
          { c with txn := .none, phase := .idle, handle := 0, timer := 0 } := by
  unfold completeGood
  simp only [resolveCompleted_eq, State.setPhase, State.modCtx_modCtx]
  rw [State.ctx_modCtx_same s i _ h]
  simp only [release, State.emit, State.modCtx, List.modify_modify_eq]
  rfl

/-- `complete!(i, Exc(code))` (R263), as one update. -/
theorem completeExc_eq (i : Nat) (code : Byte) (s : State) (h : i < s.ctxs.length) :
    completeExc i code s =
      (s.emit (plainResult (s.ctx i).handle .modbusException code)).modCtx i fun c =>
        { c with txn := .none, phase := .idle, handle := 0, timer := 0 } := by
  unfold completeExc
  simp only [resolveCompleted_eq, State.setPhase, State.modCtx_modCtx]
  rw [State.ctx_modCtx_same s i _ h]
  simp only [release, State.emit, State.modCtx, List.modify_modify_eq]
  rfl

/-! ### Steps -/

/-- What the step of an input event can be: its handler's state, or the stop of a state outside the machine. -/
theorem runEvent_next {h : State → State} {s t : State} (e : runEvent h s = .next t) :
    s.legal = true ∧ t = h s.begin := by
  unfold runEvent at e
  split at e
  · rename_i hl
    exact ⟨hl, by injection e with e; exact e.symm⟩
  · cases e

theorem runEvent_legal {h : State → State} {s : State} (hl : s.legal = true) : runEvent h s = .next (h s.begin) := by
  simp [runEvent, hl]

/-- A codec operation always completes; it writes only the value it returns, and clears the output list. -/
theorem runCodec_eq (v : CodecValue) (s : State) : runCodec v s = .next { s with out := [], codec := v } := rfl

end Sys2Proof.Machine
end

