-- ==== Sys2Proof/Laws/Engine.lean ====
section
/-! SUPPORT. What the searches, the loops over the contexts and the engine's events do, said once: which context a search
finds, an indexed induction over a loop, and the update that accepting, releasing and cancelling make. -/

namespace Sys2Proof.Machine

/-! ### Searches -/

/-- The lowest index at which a test holds. -/
theorem State.findIdx_some (s : State) (p : Ctx → Bool) (i : Nat) :
    s.ctxs.findIdx? p = some i ↔
      i < s.ctxs.length ∧ p (s.ctx i) = true ∧ ∀ j < i, p (s.ctx j) = false := by
  rw [List.findIdx?_eq_some_iff_getElem]
  constructor
  · rintro ⟨h, hp, hj⟩
    refine ⟨h, ?_, ?_⟩
    · simpa [State.ctx, h] using hp
    · intro j hji
      have := hj j hji
      simpa [State.ctx, Nat.lt_trans hji h] using this
  · rintro ⟨h, hp, hj⟩
    refine ⟨h, ?_, ?_⟩
    · simpa [State.ctx, h] using hp
    · intro j hji
      have := hj j hji
      simpa [State.ctx, Nat.lt_trans hji h] using this

theorem State.findIdx_none (s : State) (p : Ctx → Bool) :
    s.ctxs.findIdx? p = none ↔ ∀ c ∈ s.ctxs, p c = false := by
  simp [List.findIdx?_eq_none_iff]

/-- `lookup` finds the lowest awaiting context whose Pending transaction has the id (R234). -/
theorem State.lookup_some (s : State) (t : Tid) (i : Nat) :
    s.lookup t = some i ↔
      i < s.ctxs.length ∧
        ((s.ctx i).phase == .awaitingResponse && (s.ctx i).txn == .pending && (s.ctx i).tid == t) = true ∧
        ∀ j < i, ((s.ctx j).phase == .awaitingResponse && (s.ctx j).txn == .pending && (s.ctx j).tid == t) = false :=
  State.findIdx_some s _ i

theorem State.lookup_none (s : State) (t : Tid) :
    s.lookup t = none ↔
      ∀ c ∈ s.ctxs, (c.phase == .awaitingResponse && c.txn == .pending && c.tid == t) = false :=
  State.findIdx_none s _

/-- The lowest active context that holds a handle (R251, R266). -/
theorem State.findActive_some (s : State) (h : Handle) (i : Nat) :
    s.findActive h = some i ↔
      i < s.ctxs.length ∧ (isActive (s.ctx i).phase && (s.ctx i).handle == h) = true ∧
        ∀ j < i, (isActive (s.ctx j).phase && (s.ctx j).handle == h) = false :=
  State.findIdx_some s _ i

theorem State.findActive_none (s : State) (h : Handle) :
    s.findActive h = none ↔ ∀ c ∈ s.ctxs, (isActive c.phase && c.handle == h) = false :=
  State.findIdx_none s _

/-- The lowest Idle context (R250, R252). -/
theorem State.findIdle_some (s : State) (i : Nat) :
    s.findIdle = some i ↔
      i < s.ctxs.length ∧ ((s.ctx i).phase == .idle) = true ∧ ∀ j < i, ((s.ctx j).phase == .idle) = false :=
  State.findIdx_some s _ i

theorem State.findIdle_none (s : State) : s.findIdle = none ↔ ∀ c ∈ s.ctxs, (c.phase == .idle) = false :=
  State.findIdx_none s _

/-- An active context is one whose phase is neither Idle nor Draining (R251). -/
theorem isActive_of_resting {p : Phase} (h : isResting p = true) :
    isActive p = true ↔ p ≠ .idle ∧ p ≠ .draining := by
  cases p <;> simp_all [isActive, isResting]

/-! ### Loops over the contexts -/

/-- What holds of the first k turns and is carried over by the next holds after all of them (R20). -/
theorem State.forCtx_index (P : Nat → State → Prop) (f : Nat → State → State) (s : State) (h0 : P 0 s)
    (hstep : ∀ i t, i < s.ctxs.length → P i t → P (i + 1) (f i t)) : P s.ctxs.length (s.forCtx f) := by
  have key : ∀ n ≤ s.ctxs.length, P n ((List.range n).foldl (fun t i => f i t) s) := by
    intro n
    induction n with
    | zero => intro _; exact h0
    | succ n ih =>
      intro hn
      rw [List.range_succ, List.foldl_append]
      exact hstep n _ hn (ih (by omega))
  exact key _ (Nat.le_refl _)

/-! ### Accepting, releasing, cancelling -/

/-- `accept!` (R253) makes one update, which keeps the transaction id. -/
theorem acceptExecute_eq (i : Nat) (h : Handle) (r : Req) (cfg : ExecCfg) (s : State) :
    acceptExecute i h r cfg s = s.modCtx i fun c => acceptedCtx c h r cfg .sending := rfl

/-- `release!` (R264) makes one update. -/
theorem release_eq (i : Nat) (s : State) : release i s = s.modCtx i releasedCtx := rfl

/-- A state of the machine has a context table of an instance, resting phases and a buffer within its capacity. -/
theorem State.legal_iff (s : State) :
    s.legal = true ↔
      s.tableOk = true ∧ (∀ c ∈ s.ctxs, isResting c.phase = true) ∧ s.rxlen ≤ Config.rxbufCap := by
  simp [State.legal, and_assoc]

/-- On RTU the table has one context. -/
theorem State.legal_rtu {s : State} (h : s.legal = true) (hk : s.kind = .rtu) : s.ctxs = [s.ctx 0] := by
  have ht := ((State.legal_iff s).mp h).1
  unfold State.tableOk at ht
  rw [hk] at ht
  have hlen : s.ctxs.length = 1 := by simpa using ht
  obtain ⟨c, hc⟩ := List.length_eq_one_iff.mp hlen
  simp [State.ctx, hc]

/-- The block of a state does not depend on the model's own port fields. -/
theorem State.begin_block (s : State) : s.begin.block = s.block := rfl

theorem State.begin_legal (s : State) : s.begin.legal = s.legal := rfl

theorem State.begin_bufBytes (s : State) : s.begin.bufBytes = s.bufBytes := rfl

/-- RX_BYTE completes in a state of the machine unless it would append past the end of the buffer on TCP (R201, R204). -/
theorem execEvRxByte_next {b : Byte} {s : State} (hl : s.legal = true)
    (hr : s.kind = .rtu ∨ s.link ≠ .up ∨ s.rxlen < Config.rxbufCap) :
    execEvRxByte b s = .next (onRxByte b s.begin) := by
  have ha : s.appendOutOfRange = false := by
    unfold State.appendOutOfRange
    rcases hr with h | h | h
    · simp [h]
    · simp [h]
    · simp [h]
  simp [execEvRxByte, ha, runEvent_legal hl]

end Sys2Proof.Machine
end

