-- ==== Sys2Proof/Laws/PerInstr.lean ====
section
/-! SUPPORT. Per-instruction facts about the encoder: a well-formed instruction's word stands in the code space of its
row of the opcode table and its first byte has the row's fixed bits. -/

namespace Sys2Proof.Laws

/-- The fixed part of a row of spec/opcode_table.json: its code space, and the mask and match of the first byte. -/
structure Row where
  /-- The code space. -/
  space : Space
  /-- The row's mask. -/
  mask : Byte
  /-- The row's match. -/
  pattern : Byte
  deriving DecidableEq, Repr

/-- The row of each instruction. -/
def rowOf : Instr → Row
  | .reqReadCoils _ _ _ _ => ⟨.request, 0xFF, 0x01⟩
  | .reqReadHoldingRegisters _ _ _ _ => ⟨.request, 0xFF, 0x03⟩
  | .reqWriteSingleRegister _ _ _ _ => ⟨.request, 0xFF, 0x06⟩
  | .reqWriteMultipleCoils _ _ _ _ _ => ⟨.request, 0xFF, 0x0F⟩
  | .reqWriteMultipleRegisters _ _ _ _ _ => ⟨.request, 0xFF, 0x10⟩
  | .rspReadCoils _ => ⟨.response, 0xFF, 0x01⟩
  | .rspReadHoldingRegisters _ => ⟨.response, 0xFF, 0x03⟩
  | .rspWriteSingleRegister _ => ⟨.response, 0xFF, 0x06⟩
  | .rspWriteMultipleCoils _ => ⟨.response, 0xFF, 0x0F⟩
  | .rspWriteMultipleRegisters _ => ⟨.response, 0xFF, 0x10⟩
  | .rspException81 _ => ⟨.response, 0xFF, 0x81⟩
  | .rspException83 _ => ⟨.response, 0xFF, 0x83⟩
  | .rspException86 _ => ⟨.response, 0xFF, 0x86⟩
  | .rspException8F _ => ⟨.response, 0xFF, 0x8F⟩
  | .rspException90 _ => ⟨.response, 0xFF, 0x90⟩
  | .rspException _ _ => ⟨.response, 0x80, 0x80⟩
  | .rspUnrecognised _ _ => ⟨.response, 0x80, 0x00⟩
  | .evExecute _ _ _ => ⟨.event, 0x0F, 0x01⟩
  | .evCancel _ => ⟨.event, 0x0F, 0x02⟩
  | .evRxByte _ => ⟨.event, 0x0F, 0x03⟩
  | .evRxIdle => ⟨.event, 0x0F, 0x04⟩
  | .evTick => ⟨.event, 0x0F, 0x05⟩
  | .evLinkUp => ⟨.event, 0x0F, 0x06⟩
  | .evLinkDown => ⟨.event, 0x0F, 0x07⟩
  | .crcInit => ⟨.crcOp, 0x03, 0x00⟩
  | .crcUpdate _ => ⟨.crcOp, 0x03, 0x01⟩
  | .crcRead => ⟨.crcOp, 0x03, 0x02⟩

theorem bit7_and : ∀ b : Byte, b.getLsbD 7 = true → b &&& 0x80 = 0x80 := by decide +kernel

theorem bit7_clear_and : ∀ b : Byte, b.getLsbD 7 = false → b &&& 0x80 = 0x00 := by decide +kernel

namespace EncodeMatchesRow

/-- A well-formed instruction's word matches its row, at every width of the handles. -/
def Statement (i : Instr) : Prop :=
  ∀ hw : Nat, i.WellFormed hw = true →
    (encode hw i).space = (rowOf i).space ∧
      Machine.byteAt (encode hw i).bytes 0 &&& (rowOf i).mask = (rowOf i).pattern

theorem reqReadCoils (tid : Tid) (unit : Byte) (addr : Word16) (qty : Word16) :
    Statement (.reqReadCoils tid unit addr qty) :=
  fun _ _ => ⟨rfl, show (0x01 : Byte) &&& 0xFF = 0x01 by decide⟩

theorem reqReadHoldingRegisters (tid : Tid) (unit : Byte) (addr : Word16) (qty : Word16) :
    Statement (.reqReadHoldingRegisters tid unit addr qty) :=
  fun _ _ => ⟨rfl, show (0x03 : Byte) &&& 0xFF = 0x03 by decide⟩

theorem reqWriteSingleRegister (tid : Tid) (unit : Byte) (addr : Word16) (value : Word16) :
    Statement (.reqWriteSingleRegister tid unit addr value) :=
  fun _ _ => ⟨rfl, show (0x06 : Byte) &&& 0xFF = 0x06 by decide⟩

theorem reqWriteMultipleCoils (tid : Tid) (unit : Byte) (addr : Word16) (qty : Word16) (coils : List Bool) :
    Statement (.reqWriteMultipleCoils tid unit addr qty coils) :=
  fun _ _ => ⟨rfl, show (0x0F : Byte) &&& 0xFF = 0x0F by decide⟩

theorem reqWriteMultipleRegisters (tid : Tid) (unit : Byte) (addr : Word16) (qty : Word16) (regs : List Word16) :
    Statement (.reqWriteMultipleRegisters tid unit addr qty regs) :=
  fun _ _ => ⟨rfl, show (0x10 : Byte) &&& 0xFF = 0x10 by decide⟩

theorem rspReadCoils (payload : List Byte) : Statement (.rspReadCoils payload) :=
  fun _ _ => ⟨rfl, show (0x01 : Byte) &&& 0xFF = 0x01 by decide⟩

theorem rspReadHoldingRegisters (payload : List Byte) :
    Statement (.rspReadHoldingRegisters payload) :=
  fun _ _ => ⟨rfl, show (0x03 : Byte) &&& 0xFF = 0x03 by decide⟩

theorem rspWriteSingleRegister (payload : List Byte) :
    Statement (.rspWriteSingleRegister payload) :=
  fun _ _ => ⟨rfl, show (0x06 : Byte) &&& 0xFF = 0x06 by decide⟩

theorem rspWriteMultipleCoils (payload : List Byte) :
    Statement (.rspWriteMultipleCoils payload) :=
  fun _ _ => ⟨rfl, show (0x0F : Byte) &&& 0xFF = 0x0F by decide⟩

theorem rspWriteMultipleRegisters (payload : List Byte) :
    Statement (.rspWriteMultipleRegisters payload) :=
  fun _ _ => ⟨rfl, show (0x10 : Byte) &&& 0xFF = 0x10 by decide⟩

theorem rspException81 (payload : List Byte) : Statement (.rspException81 payload) :=
  fun _ _ => ⟨rfl, show (0x81 : Byte) &&& 0xFF = 0x81 by decide⟩

theorem rspException83 (payload : List Byte) : Statement (.rspException83 payload) :=
  fun _ _ => ⟨rfl, show (0x83 : Byte) &&& 0xFF = 0x83 by decide⟩

theorem rspException86 (payload : List Byte) : Statement (.rspException86 payload) :=
  fun _ _ => ⟨rfl, show (0x86 : Byte) &&& 0xFF = 0x86 by decide⟩

theorem rspException8F (payload : List Byte) : Statement (.rspException8F payload) :=
  fun _ _ => ⟨rfl, show (0x8F : Byte) &&& 0xFF = 0x8F by decide⟩

theorem rspException90 (payload : List Byte) : Statement (.rspException90 payload) :=
  fun _ _ => ⟨rfl, show (0x90 : Byte) &&& 0xFF = 0x90 by decide⟩

theorem rspException (fc : Byte) (payload : List Byte) : Statement (.rspException fc payload) := by
  intro hw h
  simp only [Instr.WellFormed, Bool.and_eq_true] at h
  refine ⟨rfl, ?_⟩
  show fc &&& 0x80 = 0x80
  exact bit7_and fc h.1

theorem rspUnrecognised (fc : Byte) (payload : List Byte) : Statement (.rspUnrecognised fc payload) := by
  intro hw h
  simp only [Instr.WellFormed, Bool.and_eq_true, Bool.not_eq_true'] at h
  refine ⟨rfl, ?_⟩
  show fc &&& 0x80 = 0x00
  exact bit7_clear_and fc h.1

theorem evExecute (handle : Handle) (req : Req) (cfg : ExecCfg) :
    Statement (.evExecute handle req cfg) :=
  fun _ _ => ⟨rfl, show (0x01 : Byte) &&& 0x0F = 0x01 by decide⟩

theorem evCancel (handle : Handle) : Statement (.evCancel handle) :=
  fun _ _ => ⟨rfl, show (0x02 : Byte) &&& 0x0F = 0x02 by decide⟩

theorem evRxByte (b : Byte) : Statement (.evRxByte b) :=
  fun _ _ => ⟨rfl, show (0x03 : Byte) &&& 0x0F = 0x03 by decide⟩

theorem evRxIdle : Statement .evRxIdle :=
  fun _ _ => ⟨rfl, show (0x04 : Byte) &&& 0x0F = 0x04 by decide⟩

theorem evTick : Statement .evTick :=
  fun _ _ => ⟨rfl, show (0x05 : Byte) &&& 0x0F = 0x05 by decide⟩

theorem evLinkUp : Statement .evLinkUp :=
  fun _ _ => ⟨rfl, show (0x06 : Byte) &&& 0x0F = 0x06 by decide⟩

theorem evLinkDown : Statement .evLinkDown :=
  fun _ _ => ⟨rfl, show (0x07 : Byte) &&& 0x0F = 0x07 by decide⟩

theorem crcInit : Statement .crcInit :=
  fun _ _ => ⟨rfl, show (0x00 : Byte) &&& 0x03 = 0x00 by decide⟩

theorem crcUpdate (b : Byte) : Statement (.crcUpdate b) :=
  fun _ _ => ⟨rfl, show (0x01 : Byte) &&& 0x03 = 0x01 by decide⟩

theorem crcRead : Statement .crcRead :=
  fun _ _ => ⟨rfl, show (0x02 : Byte) &&& 0x03 = 0x02 by decide⟩

end EncodeMatchesRow

end Sys2Proof.Laws
end

