-- ==== Sys2Proof/Laws/Port.lean ====
section
/-! SUPPORT. The handle field of a port word: what the encoder writes there is what the decoder reads, at every width; and
what a loop over the contexts emits when none re-opens the session. -/

namespace Sys2Proof.Machine

@[simp] theorem beBytes_length (n v : Nat) : (beBytes n v).length = n := by
  induction n with
  | zero => rfl
  | succ n ih => simp [beBytes, ih]

theorem beNat_foldl (l : List Byte) (a : Nat) :
    l.foldl (fun v b => 256 * v + b.toNat) a = a * 256 ^ l.length + beNat l := by
  induction l generalizing a with
  | nil => simp [beNat]
  | cons b l ih =>
    rw [beNat, List.foldl_cons, List.foldl_cons, ih, ih (256 * 0 + b.toNat), List.length_cons, pow_succ]
    ring

theorem beNat_cons (b : Byte) (l : List Byte) : beNat (b :: l) = b.toNat * 256 ^ l.length + beNat l := by
  rw [beNat, List.foldl_cons, beNat_foldl, Nat.mul_zero, Nat.zero_add]

/-- n bytes hold the low 8n bits. -/
theorem beNat_beBytes (n v : Nat) : beNat (beBytes n v) = v % 256 ^ n := by
  induction n with
  | zero => simp [beBytes, beNat, Nat.mod_one]
  | succ n ih =>
    rw [beBytes, beNat_cons, ih, beBytes_length, BitVec.toNat_ofNat, Nat.shiftRight_eq_div_pow, pow_mul]
    show v / 256 ^ n % 256 * 256 ^ n + v % 256 ^ n = v % 256 ^ (n + 1)
    rw [pow_succ, Nat.mod_mul, Nat.mul_comm, Nat.add_comm]

theorem pow_handleBytes (hw : Nat) : 2 ^ hw ≤ 256 ^ handleBytes hw := by
  rw [show (256 : Nat) = 2 ^ 8 from rfl, ← pow_mul]
  exact Nat.pow_le_pow_right (by omega) (by unfold handleBytes; omega)

/-- Whatever bytes a port word has, the handle read from it is HANDLE_W bits wide (R11, R102). -/
theorem handleAt_lt (hw : Nat) (s : List Byte) (i : Nat) : handleAt hw s i < 2 ^ hw :=
  Nat.mod_lt _ (Nat.two_pow_pos hw)

/-- The handle written after the bytes l is read back at their end. -/
theorem handleAt_append (hw : Nat) (l : List Byte) (h : Handle) (hh : h < 2 ^ hw) :
    handleAt hw (l ++ beBytes (handleBytes hw) h) l.length = h := by
  have ht : (beBytes (handleBytes hw) h).take (handleBytes hw) = beBytes (handleBytes hw) h :=
    List.take_of_length_le (by simp)
  rw [handleAt, List.drop_left, ht, beNat_beBytes, Nat.mod_eq_of_lt (Nat.lt_of_lt_of_le hh (pow_handleBytes hw)),
    Nat.mod_eq_of_lt hh]

/-- Where no context re-opens the session, a loop emits the results alone (R309). -/
theorem turnOutputs_none (reopens : Ctx → Bool) (result : Ctx → Option Output) (cs : List Ctx)
    (h : ∀ c ∈ cs, reopens c = false) : turnOutputs reopens result cs = cs.filterMap result := by
  induction cs with
  | nil => rfl
  | cons c cs ih =>
    have hc : reopens c = false := h c (by simp)
    rw [turnOutputs, if_neg (by simp [hc]), ih fun d hd => h d (by simp [hd]), List.filterMap_cons]
    cases result c <;> rfl

end Sys2Proof.Machine
end

