-- ==== Sys2Proof/Laws/Turn.lean ====
section
/-! SUPPORT. What one context's turn in a loop over the contexts can touch, said once for every engine procedure: the
context itself, the session, the registry's counter, the receive side's fill count and resync, and the end of the output
list; and what a whole loop then leaves of each context. -/

namespace Sys2Proof.Machine

/-- From s to t only context i, the shared registers and the end of the output list can differ. -/
structure Turn (i : Nat) (s t : State) : Prop where
  kind : t.kind = s.kind
  handleW : t.handleW = s.handleW
  inbox : t.inbox = s.inbox
  codec : t.codec = s.codec
  rxbuf : t.rxbuf = s.rxbuf
  lineQuiet : t.lineQuiet = s.lineQuiet
  crc : t.crc = s.crc
  length : t.ctxs.length = s.ctxs.length
  others : ∀ j, j ≠ i → t.ctx j = s.ctx j
  outs : ∃ l, t.out = s.out ++ l

theorem Turn.refl (i : Nat) (s : State) : Turn i s s :=
  ⟨rfl, rfl, rfl, rfl, rfl, rfl, rfl, rfl, fun _ _ => rfl, [], by simp⟩

theorem Turn.trans {i : Nat} {s t u : State} (h : Turn i s t) (k : Turn i t u) : Turn i s u where
  kind := k.kind.trans h.kind
  handleW := k.handleW.trans h.handleW
  inbox := k.inbox.trans h.inbox
  codec := k.codec.trans h.codec
  rxbuf := k.rxbuf.trans h.rxbuf
  lineQuiet := k.lineQuiet.trans h.lineQuiet
  crc := k.crc.trans h.crc
  length := k.length.trans h.length
  others := fun j hj => (k.others j hj).trans (h.others j hj)
  outs := by
    obtain ⟨l, hl⟩ := h.outs
    obtain ⟨m, hm⟩ := k.outs
    exact ⟨l ++ m, by rw [hm, hl, List.append_assoc]⟩

theorem turn_modCtx (i : Nat) (f : Ctx → Ctx) (s : State) : Turn i s (s.modCtx i f) :=
  ⟨rfl, rfl, rfl, rfl, rfl, rfl, rfl, by simp, fun j hj => State.ctx_modCtx_other s i j f hj, [], by simp⟩

theorem turn_emit (i : Nat) (o : Output) (s : State) : Turn i s (s.emit o) :=
  ⟨rfl, rfl, rfl, rfl, rfl, rfl, rfl, rfl, fun _ _ => rfl, [o], rfl⟩

theorem turn_setLink (i : Nat) (l : Link) (s : State) : Turn i s (s.setLink l) :=
  ⟨rfl, rfl, rfl, rfl, rfl, rfl, rfl, rfl, fun _ _ => rfl, [], by simp⟩

theorem turn_bufClear (i : Nat) (s : State) : Turn i s s.bufClear :=
  ⟨rfl, rfl, rfl, rfl, rfl, rfl, rfl, rfl, fun _ _ => rfl, [], by simp⟩

theorem turn_endDiscard (i : Nat) (s : State) : Turn i s s.endDiscard :=
  ⟨rfl, rfl, rfl, rfl, rfl, rfl, rfl, rfl, fun _ _ => rfl, [], by simp⟩

theorem turn_startDiscard (i : Nat) (s : State) : Turn i s s.startDiscard :=
  ⟨rfl, rfl, rfl, rfl, rfl, rfl, rfl, rfl, fun _ _ => rfl, [], by simp⟩

theorem turn_registerTxn (i : Nat) (s : State) : Turn i s (registerTxn i s) := by
  unfold registerTxn
  split
  · refine Turn.trans (t := { s with tidCtr := s.nextTid + 1 }) ?_ (turn_modCtx i _ _)
    exact ⟨rfl, rfl, rfl, rfl, rfl, rfl, rfl, rfl, fun _ _ => rfl, [], by simp⟩
  · exact turn_modCtx i _ s

theorem turn_sendFrame (i : Nat) (s : State) : Turn i s (sendFrame i s) := by
  unfold sendFrame
  split
  · exact (turn_emit i _ s).trans (turn_modCtx i _ _)
  · exact ((turn_bufClear i s).trans (turn_emit i _ _)).trans (turn_modCtx i _ _)

/-- `sending!` (R261). -/
theorem turn_sendAttempt (i : Nat) (s : State) : Turn i s (sendAttempt i s) := by
  have hp : Turn i s (s.setPhase i .sending) := turn_modCtx i _ s
  cases hl : s.link with
  | down =>
    rw [sendAttempt_of_down i s hl]
    exact ((hp.trans (turn_emit i _ _)).trans (turn_setLink i _ _)).trans (turn_modCtx i _ _)
  | opening =>
    rw [sendAttempt_of_opening i s hl]
    exact hp.trans (turn_modCtx i _ _)
  | up =>
    rw [sendAttempt_of_up i s hl]
    split
    · exact hp.trans (turn_modCtx i _ _)
    · exact (hp.trans (turn_registerTxn i _)).trans (turn_sendFrame i _)

/-- `release!` (R264). -/
theorem turn_release (i : Nat) (s : State) : Turn i s (release i s) := turn_modCtx i _ s

/-- `attempt_fail!` (R262). -/
theorem turn_attemptFail (i : Nat) (err : Status) (s : State) : Turn i s (attemptFail i err s) := by
  have h1 : Turn i s (if ((s.setPhase i .retryOrFail).ctx i).txn = .pending
      then resolveFailed i (s.setPhase i .retryOrFail) else s.setPhase i .retryOrFail) := by
    have h0 : Turn i s (s.setPhase i .retryOrFail) := turn_modCtx i _ s
    split
    · rw [resolveFailed_eq]
      exact h0.trans (turn_modCtx i _ _)
    · exact h0
  have h2 := h1.trans (turn_modCtx i (fun c => { c with lastErr := err }) _)
  simp only [attemptFail]
  generalize (if ((s.setPhase i .retryOrFail).ctx i).txn = .pending
      then resolveFailed i (s.setPhase i .retryOrFail) else s.setPhase i .retryOrFail) = u at h2 ⊢
  split
  · split
    · exact (h2.trans (turn_modCtx i _ _)).trans (turn_sendAttempt i _)
    · exact h2.trans (turn_modCtx i _ _)
  · exact (h2.trans (turn_emit i _ _)).trans (turn_release i _)

/-- `complete!` for a good response (R263). -/
theorem turn_completeGood (i : Nat) (body : Body) (s : State) : Turn i s (completeGood i body s) := by
  have h0 : Turn i s (resolveCompleted i (s.setPhase i .decoding)) := by
    rw [resolveCompleted_eq]
    exact (turn_modCtx i _ s).trans (turn_modCtx i _ _)
  exact (h0.trans (turn_emit i _ _)).trans (turn_release i _)

/-- `complete!` for an exception response (R263). -/
theorem turn_completeExc (i : Nat) (code : Byte) (s : State) : Turn i s (completeExc i code s) := by
  have h0 : Turn i s ((resolveCompleted i (s.setPhase i .decoding)).setPhase i .exceptionReceived) := by
    rw [resolveCompleted_eq]
    exact ((turn_modCtx i _ s).trans (turn_modCtx i _ _)).trans (turn_modCtx i _ _)
  exact (h0.trans (turn_emit i _ _)).trans (turn_release i _)

/-- One context's turn in TICK (R270). -/
theorem turn_tickCtx (i : Nat) (s : State) : Turn i s (tickCtx i s) := by
  have hexp : ∀ u, Turn i u (expireTxn i (u.setPhase i .timedOut)) := by
    intro u
    rw [expireTxn_eq]
    exact (turn_modCtx i _ u).trans (turn_modCtx i _ _)
  have hd : ∀ u, Turn i u (tickDeadline i u) := by
    intro u
    unfold tickDeadline
    split
    · split
      · exact (hexp u).trans (turn_attemptFail i _ _)
      · exact Turn.refl i u
    · split
      · exact turn_sendAttempt i u
      · exact Turn.refl i u
    · split
      · exact ((turn_endDiscard i u).trans (turn_bufClear i _)).trans (turn_sendAttempt i _)
      · exact Turn.refl i u
    · split
      · exact turn_attemptFail i _ u
      · exact Turn.refl i u
    · split
      · exact turn_release i u
      · exact Turn.refl i u
    all_goals exact Turn.refl i u
  unfold tickCtx
  split
  · exact (turn_modCtx i _ s).trans (hd _)
  · exact Turn.refl i s

/-- One context's turn in LINK_UP (R275). -/
theorem turn_linkUpCtx (i : Nat) (s : State) : Turn i s (linkUpCtx i s) := by
  unfold linkUpCtx
  split
  · exact turn_sendAttempt i s
  · exact Turn.refl i s

/-- One context's turn in LINK_DOWN (R276). -/
theorem turn_linkDownCtx (i : Nat) (s : State) : Turn i s (linkDownCtx i s) := by
  unfold linkDownCtx
  split
  · exact turn_attemptFail i _ s
  · exact turn_attemptFail i _ s
  · exact turn_sendAttempt i s
  · exact turn_release i s
  all_goals exact Turn.refl i s

/-- One context's turn in a TCP abort (R220). -/
theorem turn_tcpAbortCtx (bad : Tid) (i : Nat) (s : State) : Turn i s (tcpAbortCtx bad i s) := by
  unfold tcpAbortCtx
  split
  · split <;> exact turn_attemptFail i _ s
  · exact Turn.refl i s

/-- The state before the k-th context's turn in a loop. -/
def State.beforeTurn (f : Nat → State → State) (s : State) (k : Nat) : State :=
  (List.range k).foldl (fun t i => f i t) s

theorem State.beforeTurn_zero (f : Nat → State → State) (s : State) : s.beforeTurn f 0 = s := rfl

theorem State.beforeTurn_succ (f : Nat → State → State) (s : State) (k : Nat) :
    s.beforeTurn f (k + 1) = f k (s.beforeTurn f k) := by
  simp [State.beforeTurn, List.range_succ, List.foldl_append]

theorem State.forCtx_eq_beforeTurn (f : Nat → State → State) (s : State) :
    s.forCtx f = s.beforeTurn f s.ctxs.length := rfl

/-- Before the k-th turn every context from k on is as it was, and nothing a turn cannot touch has changed. -/
structure BeforeTurn (k : Nat) (s t : State) : Prop where
  kind : t.kind = s.kind
  handleW : t.handleW = s.handleW
  inbox : t.inbox = s.inbox
  codec : t.codec = s.codec
  rxbuf : t.rxbuf = s.rxbuf
  lineQuiet : t.lineQuiet = s.lineQuiet
  crc : t.crc = s.crc
  length : t.ctxs.length = s.ctxs.length
  later : ∀ j, k ≤ j → t.ctx j = s.ctx j
  outs : ∃ l, t.out = s.out ++ l

theorem State.beforeTurn_frame {f : Nat → State → State} (hf : ∀ i t, Turn i t (f i t)) (s : State) (k : Nat) :
    BeforeTurn k s (s.beforeTurn f k) := by
  induction k with
  | zero => exact ⟨rfl, rfl, rfl, rfl, rfl, rfl, rfl, rfl, fun _ _ => rfl, [], by simp [State.beforeTurn_zero]⟩
  | succ k ih =>
    have ht := hf k (s.beforeTurn f k)
    obtain ⟨l, hl⟩ := ih.outs
    obtain ⟨m, hm⟩ := ht.outs
    rw [State.beforeTurn_succ]
    refine ⟨ht.kind.trans ih.kind, ht.handleW.trans ih.handleW, ht.inbox.trans ih.inbox, ht.codec.trans ih.codec,
      ht.rxbuf.trans ih.rxbuf, ht.lineQuiet.trans ih.lineQuiet, ht.crc.trans ih.crc, ht.length.trans ih.length, ?_,
      l ++ m, by rw [hm, hl, List.append_assoc]⟩
    intro j hj
    exact (ht.others j (by omega)).trans (ih.later j (by omega))

/-- After a loop each context is what its own turn made of it, from the state before that turn, where it was untouched. -/
theorem State.forCtx_ctx {f : Nat → State → State} (hf : ∀ i t, Turn i t (f i t)) (s : State) {i : Nat}
    (hi : i < s.ctxs.length) :
    (s.forCtx f).ctx i = (f i (s.beforeTurn f i)).ctx i ∧ (s.beforeTurn f i).ctx i = s.ctx i := by
  refine ⟨?_, (State.beforeTurn_frame hf s i).later i (Nat.le_refl i)⟩
  have key : ∀ n, i < n → (s.beforeTurn f n).ctx i = (f i (s.beforeTurn f i)).ctx i := by
    intro n
    induction n with
    | zero => intro h; omega
    | succ n ih =>
      intro h
      rw [State.beforeTurn_succ]
      by_cases hn : i = n
      · subst hn; rfl
      · exact ((hf n _).others i hn).trans (ih (by omega))
  rw [State.forCtx_eq_beforeTurn]
  exact key _ hi

end Sys2Proof.Machine
end

