-- ==== Sys2Proof/Tests/Slice0.lean ====
section
/-! SUPPORT. Tests: ill-formed terms the checks refuse, words written out from the encodings, one-step examples of the
spec, and for every statement with hypotheses a state and operands that meet them. -/

namespace Sys2Proof.Tests

set_option Elab.async false

open Sys2Proof Sys2Proof.Machine

/-! ### Well-formedness: each check refuses -/

theorem test_wf_quantity_zero : Instr.WellFormed 16 (.reqReadCoils 0 1 0 0) = false := by decide

theorem test_wf_coils_too_many : Instr.WellFormed 16 (.reqReadCoils 0 1 0 2001) = false := by decide

theorem test_wf_registers_too_many : Instr.WellFormed 16 (.reqReadHoldingRegisters 0 1 0 126) = false := by decide

theorem test_wf_range_past_end : Instr.WellFormed 16 (.reqReadHoldingRegisters 0 1 0xFFFF 2) = false := by decide

theorem test_wf_range_at_end : Instr.WellFormed 16 (.reqReadHoldingRegisters 0 1 0xFFFF 1) = true := by decide

theorem test_wf_coil_list_length : Instr.WellFormed 16 (.reqWriteMultipleCoils 0 1 0 2 [true]) = false := by decide

theorem test_wf_register_list_length : Instr.WellFormed 16 (.reqWriteMultipleRegisters 0 1 0 2 [7]) = false := by decide

theorem test_wf_exception_bit_clear : Instr.WellFormed 16 (.rspException 0x41 []) = false := by decide

theorem test_wf_exception_of_a_row : Instr.WellFormed 16 (.rspException 0x83 []) = false := by decide

theorem test_wf_unrecognised_bit_set : Instr.WellFormed 16 (.rspUnrecognised 0x80 []) = false := by decide

theorem test_wf_unrecognised_in_scope : Instr.WellFormed 16 (.rspUnrecognised 0x10 []) = false := by decide

theorem test_wf_execute_registers :
    Instr.WellFormed 16 (.evExecute 0 ⟨3, 1, 0, 1, List.replicate 126 0, []⟩ ⟨1, 0, 0⟩) = false := by decide +kernel

theorem test_wf_execute_coils :
    Instr.WellFormed 16 (.evExecute 0 ⟨1, 1, 0, 1, [], List.replicate 2001 true⟩ ⟨1, 0, 0⟩) = false := by decide +kernel

theorem test_wf_execute_handle :
    Instr.WellFormed 16 (.evExecute 65536 ⟨3, 1, 0, 1, [], []⟩ ⟨1, 0, 0⟩) = false := by decide +kernel

theorem test_wf_cancel_handle : Instr.WellFormed 8 (.evCancel 256) = false := by decide +kernel

/-! ### Words written out from the encodings (30_encoding R95 to R103, R111; 40_crc R130) -/

theorem test_decode_reqReadCoils :
    decode? 16 ⟨.request, [0x01, 0x00, 0x13, 0x00, 0x14, 0x11, 0x12, 0x34]⟩ =
      some (.reqReadCoils 0x1234 0x11 0x0013 0x0014) := by decide +kernel

theorem test_decode_reqReadHoldingRegisters :
    decode? 16 ⟨.request, [0x03, 0x00, 0x6B, 0x00, 0x03, 0x11, 0x00, 0x02]⟩ =
      some (.reqReadHoldingRegisters 0x0002 0x11 0x006B 0x0003) := by decide +kernel

theorem test_decode_reqWriteSingleRegister :
    decode? 16 ⟨.request, [0x06, 0x00, 0x05, 0x12, 0x34, 0x01, 0x00, 0x01]⟩ =
      some (.reqWriteSingleRegister 0x0001 0x01 0x0005 0x1234) := by decide +kernel

theorem test_decode_reqWriteMultipleCoils :
    decode? 16 ⟨.request, [0x0F, 0x00, 0x13, 0x00, 0x0A, 0x02, 0xCD, 0x01, 0x01, 0x00, 0x09]⟩ =
      some (.reqWriteMultipleCoils 0x0009 0x01 0x0013 0x000A
        [true, false, true, true, false, false, true, true, true, false]) := by decide +kernel

theorem test_decode_reqWriteMultipleRegisters :
    decode? 16 ⟨.request, [0x10, 0x00, 0x01, 0x00, 0x02, 0x04, 0x00, 0x0A, 0x01, 0x02, 0x01, 0x12, 0x34]⟩ =
      some (.reqWriteMultipleRegisters 0x1234 0x01 0x0001 0x0002 [0x000A, 0x0102]) := by decide +kernel

theorem test_decode_req_byte_count :
    decode? 16 ⟨.request, [0x10, 0x00, 0x01, 0x00, 0x02, 0x03, 0x00, 0x0A, 0x01, 0x02, 0x01, 0x12, 0x34]⟩ = none := by
  decide +kernel

theorem test_decode_rspReadCoils :
    decode? 16 ⟨.response, [0x01, 0x03, 0xCD, 0x6B, 0x05]⟩ = some (.rspReadCoils [0x03, 0xCD, 0x6B, 0x05]) := by
  decide +kernel

theorem test_decode_rspReadHoldingRegisters :
    decode? 16 ⟨.response, [0x03, 0x02, 0x00, 0x2A]⟩ = some (.rspReadHoldingRegisters [0x02, 0x00, 0x2A]) := by
  decide +kernel

theorem test_decode_rspWriteSingleRegister :
    decode? 16 ⟨.response, [0x06, 0x00, 0x05, 0x12, 0x34]⟩ = some (.rspWriteSingleRegister [0x00, 0x05, 0x12, 0x34]) := by
  decide +kernel

theorem test_decode_rspWriteMultipleCoils :
    decode? 16 ⟨.response, [0x0F, 0x00, 0x13, 0x00, 0x0A]⟩ = some (.rspWriteMultipleCoils [0x00, 0x13, 0x00, 0x0A]) := by
  decide +kernel

theorem test_decode_rspWriteMultipleRegisters :
    decode? 16 ⟨.response, [0x10, 0x00, 0x01, 0x00, 0x02]⟩ =
      some (.rspWriteMultipleRegisters [0x00, 0x01, 0x00, 0x02]) := by decide +kernel

theorem test_decode_rspException81 : decode? 16 ⟨.response, [0x81, 0x01]⟩ = some (.rspException81 [0x01]) := by
  decide +kernel

theorem test_decode_rspException83 : decode? 16 ⟨.response, [0x83, 0x02]⟩ = some (.rspException83 [0x02]) := by
  decide +kernel

theorem test_decode_rspException86 : decode? 16 ⟨.response, [0x86, 0x03]⟩ = some (.rspException86 [0x03]) := by
  decide +kernel

theorem test_decode_rspException8F : decode? 16 ⟨.response, [0x8F, 0x04]⟩ = some (.rspException8F [0x04]) := by
  decide +kernel

theorem test_decode_rspException90 : decode? 16 ⟨.response, [0x90, 0x06]⟩ = some (.rspException90 [0x06]) := by
  decide +kernel

theorem test_decode_rspException : decode? 16 ⟨.response, [0x82, 0x05]⟩ = some (.rspException 0x82 [0x05]) := by
  decide +kernel

theorem test_decode_rspUnrecognised : decode? 16 ⟨.response, [0x04, 0x02, 0x00, 0x01]⟩ =
    some (.rspUnrecognised 0x04 [0x02, 0x00, 0x01]) := by decide +kernel

/-- fc 0x06, unit 0x11, addr 0x0005, qty 1, timeout 100, retries 2, backoff 10, one register, no coil, handle 0x0102. -/
theorem test_decode_evExecute :
    decode? 16 ⟨.event, [0x01, 0x06, 0x11, 0x00, 0x05, 0x00, 0x01, 0x00, 0x00, 0x00, 0x64, 0x00, 0x00, 0x00,
      0x02, 0x00, 0x00, 0x00, 0x0A, 0x00, 0x01, 0x00, 0x00, 0x12, 0x34, 0x01, 0x02]⟩ =
      some (.evExecute 0x0102 ⟨0x06, 0x11, 0x0005, 1, [0x1234], []⟩ ⟨100, 2, 10⟩) := by decide +kernel

theorem test_decode_evCancel : decode? 16 ⟨.event, [0x02, 0x01, 0x02]⟩ = some (.evCancel 0x0102) := by decide +kernel

/-- R11: the handle has HANDLE_W bits; here 12, of which the four bits above are not read. -/
theorem test_decode_evCancel_width :
    decode? 12 ⟨.event, [0x02, 0xF1, 0x02]⟩ = some (.evCancel 0x102) ∧
      decode? 8 ⟨.event, [0x02, 0xF1]⟩ = some (.evCancel 0xF1) ∧
      decode? 24 ⟨.event, [0x02, 0x01, 0x02]⟩ = none := by decide +kernel

theorem test_decode_evRxByte : decode? 16 ⟨.event, [0x03, 0xA5]⟩ = some (.evRxByte 0xA5) := by decide +kernel

theorem test_decode_evRxIdle : decode? 16 ⟨.event, [0x04]⟩ = some .evRxIdle := by decide +kernel

theorem test_decode_evTick : decode? 16 ⟨.event, [0x05]⟩ = some .evTick := by decide +kernel

theorem test_decode_evLinkUp : decode? 16 ⟨.event, [0x06]⟩ = some .evLinkUp := by decide +kernel

theorem test_decode_evLinkDown : decode? 16 ⟨.event, [0x07]⟩ = some .evLinkDown := by decide +kernel

theorem test_decode_crcInit : decode? 16 ⟨.crcOp, [0x00]⟩ = some .crcInit := by decide +kernel

theorem test_decode_crcUpdate : decode? 16 ⟨.crcOp, [0x01, 0x7E]⟩ = some (.crcUpdate 0x7E) := by decide +kernel

theorem test_decode_crcRead : decode? 16 ⟨.crcOp, [0x02]⟩ = some .crcRead := by decide +kernel

theorem test_decode_reserved_event : decode? 16 ⟨.event, [0x08]⟩ = none := by decide +kernel

/-! ### Small states -/

/-- The block's part of an answer that is a next state. -/
def blockOf : Answer → Option Block
  | .next t => some t.block
  | .fault _ => none
  | .refused _ => none

/-- The outputs of an answer that is a next state. -/
def outOf : Answer → Option (List Output)
  | .next t => some t.out
  | .fault _ => none
  | .refused _ => none

/-- The codec value of an answer that is a next state. -/
def codecOf : Answer → Option CodecValue
  | .next t => some t.codec
  | .fault _ => none
  | .refused _ => none

/-- READ_HOLDING_REGISTERS, unit 1, address 0, quantity 1. -/
def req : Req := ⟨0x03, 0x01, 0x0000, 1, [], []⟩

/-- A deadline of 2 TICKs, m retries, a backoff of b TICKs. -/
def cfg (m b : Word32) : ExecCfg := ⟨2, m, b⟩

/-- A context in a phase, of an execute with handle h, at timer t. -/
def ctxIn (p : Phase) (h : Handle) (m b t : Word32) : Ctx where
  phase := p
  handle := if p = .draining then 0 else h
  req := req
  cfg := cfg m b
  attempt := 0
  tid := 0
  txn := if p = .awaitingResponse then .pending else .none
  timer := t
  lastErr := .ok

/-- A state with a session, contexts and received bytes. -/
def stateIn (k : Kind) (l : Link) (cs : List Ctx) (bytes : List Byte) : State :=
  bytes.foldl (fun s b => s.bufAppend b) { State.resetOf ⟨k, cs.length, 16⟩ with link := l, ctxs := cs }

/-! ### One step: the examples of the rules -/

theorem test_crc_init : (blockOf (exec .crcInit { State.reset with crc := 0x1234 })).map (·.crc) = some 0xFFFF := by
  decide +kernel

/-- R132: 0xFFFF updated with 0x01 is 0x807E. -/
theorem test_crc_update : (blockOf (exec (.crcUpdate 0x01) State.reset)).map (·.crc) = some 0x807E :=
  by decide +kernel

theorem test_crc_read : codecOf (exec .crcRead { State.reset with crc := 0x0A84 }) = some (.crc 0x0A84) := by
  decide +kernel

/-- R138: the check value. -/
theorem test_crc_check : crc16 [0x31, 0x32, 0x33, 0x34, 0x35, 0x36, 0x37, 0x38, 0x39] = 0x4B37 := by decide +kernel

/-- R152. -/
theorem test_req_readCoils_rtu :
    codecOf (exec (.reqReadCoils 0x1234 0x01 0x0013 0x0013) (State.resetOf ⟨.rtu, 1, 16⟩)) =
      some (.frame [0x01, 0x01, 0x00, 0x13, 0x00, 0x13, 0x8C, 0x02]) := by decide +kernel

theorem test_req_readCoils_tcp :
    codecOf (exec (.reqReadCoils 0x1234 0x01 0x0013 0x0013) State.reset) =
      some (.frame [0x12, 0x34, 0x00, 0x00, 0x00, 0x06, 0x01, 0x01, 0x00, 0x13, 0x00, 0x13]) := by decide +kernel

/-- R153. -/
theorem test_req_readHoldingRegisters :
    codecOf (exec (.reqReadHoldingRegisters 0 0x11 0x006B 3) (State.resetOf ⟨.rtu, 1, 16⟩)) =
      some (.frame [0x11, 0x03, 0x00, 0x6B, 0x00, 0x03, 0x76, 0x87]) := by decide +kernel

/-- R154. -/
theorem test_req_writeSingleRegister :
    codecOf (exec (.reqWriteSingleRegister 0 0x01 0x0001 0x0003) (State.resetOf ⟨.rtu, 1, 16⟩)) =
      some (.frame [0x01, 0x06, 0x00, 0x01, 0x00, 0x03, 0x98, 0x0B]) := by decide +kernel

/-- R155. -/
theorem test_req_writeMultipleCoils :
    codecOf (exec (.reqWriteMultipleCoils 0 0x01 0x0013 10
      [true, false, true, true, false, false, true, true, true, false]) (State.resetOf ⟨.rtu, 1, 16⟩)) =
      some (.frame [0x01, 0x0F, 0x00, 0x13, 0x00, 0x0A, 0x02, 0xCD, 0x01, 0x72, 0xCB]) := by decide +kernel

/-- R156. -/
theorem test_req_writeMultipleRegisters :
    codecOf (exec (.reqWriteMultipleRegisters 0x1234 0x01 0x0001 2 [0x000A, 0x0102]) State.reset) =
      some (.frame [0x12, 0x34, 0x00, 0x00, 0x00, 0x0B, 0x01, 0x10, 0x00, 0x01, 0x00, 0x02, 0x04, 0x00, 0x0A, 0x01,
        0x02]) := by decide +kernel

/-- R177. -/
theorem test_rsp_readCoils :
    codecOf (exec (.rspReadCoils [0x03, 0xCD, 0x6B, 0x05]) State.reset) =
      some (.pdu (.coilBytes [0xCD, 0x6B, 0x05])) := by decide +kernel

theorem test_rsp_readCoils_short :
    codecOf (exec (.rspReadCoils [0x03, 0xCD, 0x6B]) State.reset) = some (.pdu .invalid) := by decide +kernel

/-- R178. -/
theorem test_rsp_readHoldingRegisters :
    codecOf (exec (.rspReadHoldingRegisters [0x08, 0x00, 0x0A, 0x00, 0x14, 0x00, 0x1E, 0x00, 0x28]) State.reset) =
      some (.pdu (.regs [10, 20, 30, 40])) := by decide +kernel

theorem test_rsp_readHoldingRegisters_odd :
    codecOf (exec (.rspReadHoldingRegisters [0x03, 0x00, 0x0A, 0x00]) State.reset) = some (.pdu .invalid) := by
  decide +kernel

/-- R179 to R181. -/
theorem test_rsp_writeSingleRegister :
    codecOf (exec (.rspWriteSingleRegister [0x00, 0x05, 0x12, 0x34]) State.reset) =
      some (.pdu (.wr 0x06 0x0005 0x1234)) := by decide +kernel

theorem test_rsp_writeMultipleCoils :
    codecOf (exec (.rspWriteMultipleCoils [0x00, 0x13, 0x00, 0x0A]) State.reset) =
      some (.pdu (.wr 0x0F 0x0013 10)) := by decide +kernel

theorem test_rsp_writeMultipleRegisters :
    codecOf (exec (.rspWriteMultipleRegisters [0x00, 0x01, 0x00, 0x02]) State.reset) =
      some (.pdu (.wr 0x10 0x0001 2)) := by decide +kernel

/-- R176. -/
theorem test_rsp_exception83 :
    codecOf (exec (.rspException83 [0x02]) State.reset) = some (.pdu (.exc 0x03 0x02)) := by decide +kernel

theorem test_rsp_exception83_long :
    codecOf (exec (.rspException83 [0x02, 0x00]) State.reset) = some (.pdu .invalid) := by decide +kernel

theorem test_rsp_exception80 :
    codecOf (exec (.rspException 0x80 [0x07]) State.reset) = some (.pdu (.exc 0x00 0x07)) := by decide +kernel

theorem test_rsp_unrecognised :
    codecOf (exec (.rspUnrecognised 0x04 [0x02, 0x00, 0x01]) State.reset) = some (.pdu .invalid) := by decide +kernel

/-- 95_test_vectors P3: the frame of an RTU EXECUTE. -/
theorem test_execute_rtu :
    outOf (exec (.evExecute 5 req (cfg 2 10)) (stateIn .rtu .up [Ctx.reset] [])) =
      some [.txFrame [0x01, 0x03, 0x00, 0x00, 0x00, 0x01, 0x84, 0x0A]] := by decide +kernel

/-- P10: a closed session is opened. -/
theorem test_execute_opens : outOf (exec (.evExecute 1 req (cfg 1 5)) State.reset) = some [.reqOpen] := by
  decide +kernel

/-- E16: an RTU cancel drains, the timer kept. -/
theorem test_cancel_rtu :
    (blockOf (exec (.evCancel 3) (stateIn .rtu .up [ctxIn .awaitingResponse 3 0 0 1] []))).map
      (fun b => b.ctxs.map fun c => (c.phase, c.handle, c.txn, c.timer)) = some [(.draining, 0, .none, 1)] := by
  decide +kernel

/-- P4: the last byte of an exception response ends the execute. -/
theorem test_rxByte_exception :
    outOf (exec (.evRxByte 0xF1) (stateIn .rtu .up [ctxIn .awaitingResponse 1 2 10 0] [0x01, 0x83, 0x02, 0xC0])) =
      some [.result ⟨1, .modbusException, 0x02, none, none⟩] := by decide +kernel

/-- P6: a header with protocol id 1 aborts the session. -/
theorem test_rxByte_abort :
    outOf (exec (.evRxByte 0x05)
      (stateIn .tcp .up [ctxIn .awaitingResponse 20 1 0 0, { ctxIn .awaitingResponse 21 0 0 0 with tid := 1 }]
        [0x00, 0x00, 0x00, 0x01, 0x00])) =
      some [.reqClose, .reqOpen, .result ⟨21, .connectionLost, 0, none, none⟩] := by decide +kernel

/-- F11: RX_IDLE ends a resync. -/
theorem test_rxIdle_resync :
    (blockOf (exec .evRxIdle
      { stateIn .rtu .up [Ctx.reset] [] with rxDiscard := true, lineQuiet := false })).map
      (fun b => (b.rxDiscard, b.lineQuiet)) = some (false, true) := by decide +kernel

/-- P9: a frame of an unknown function code ends at the silence. -/
theorem test_rxIdle_unknown :
    outOf (exec .evRxIdle
      (stateIn .rtu .up [ctxIn .awaitingResponse 1 0 0 0] [0x01, 0x04, 0x02, 0x00, 0x01, 0x78, 0xF0])) =
      some [.result ⟨1, .malformedFrame, 0, none, none⟩] := by decide +kernel

/-- E17: the drain ends at its deadline with no output. -/
theorem test_tick_drain :
    outOf (exec .evTick (stateIn .rtu .up [ctxIn .draining 0 0 0 1] [])) = some [] := by decide +kernel

theorem test_tick_timeout :
    outOf (exec .evTick (stateIn .tcp .up [ctxIn .awaitingResponse 9 0 0 1] [])) =
      some [.result ⟨9, .timeout, 0, none, none⟩] := by decide +kernel

/-- E4: waiting contexts send in index order with consecutive ids. -/
theorem test_linkUp :
    outOf (exec .evLinkUp (stateIn .tcp .opening [ctxIn .linkWait 1 0 0 0, ctxIn .linkWait 2 0 0 0] [])) =
      some [.txFrame [0x00, 0x00, 0x00, 0x00, 0x00, 0x06, 0x01, 0x03, 0x00, 0x00, 0x00, 0x01],
        .txFrame [0x00, 0x01, 0x00, 0x00, 0x00, 0x06, 0x01, 0x03, 0x00, 0x00, 0x00, 0x01]] := by decide +kernel

/-- E10: the awaiting execute ends with ConnectionLost and the one in Backoff stays. -/
theorem test_linkDown :
    outOf (exec .evLinkDown (stateIn .tcp .up [ctxIn .awaitingResponse 1 0 0 0, ctxIn .backoff 2 1 5 0] [])) =
      some [.result ⟨1, .connectionLost, 0, none, none⟩] := by decide +kernel

theorem test_linkDown_reopens :
    outOf (exec .evLinkDown (stateIn .rtu .up [ctxIn .awaitingResponse 9 1 0 0] [0x01, 0x06])) = some [.reqOpen] := by
  decide +kernel

/-- R20, R309: REQ_OPEN stands at the turn of the first context that re-opens the session. -/
theorem test_linkDown_order :
    outOf (exec .evLinkDown (stateIn .tcp .up
      [ctxIn .awaitingResponse 1 0 0 0, ctxIn .awaitingResponse 2 1 0 0, ctxIn .awaitingResponse 3 0 0 0] [])) =
      some [.result ⟨1, .connectionLost, 0, none, none⟩, .reqOpen,
        .result ⟨3, .connectionLost, 0, none, none⟩] := by decide +kernel

/-- R17, R37: a send computes a CRC and does not write crc. -/
theorem test_execute_crc_kept :
    (blockOf (exec (.evExecute 5 req (cfg 2 10)) { stateIn .rtu .up [Ctx.reset] [] with crc := 0x1234 })).map (·.crc) =
      some 0x1234 := by decide +kernel

/-! ### Witnesses: for each statement with hypotheses, and each of its clauses, a state and operands that meet them -/

/-- The good response to `req` on RTU: one register, 0x002A. -/
def answer : List Byte := [0x01, 0x03, 0x02, 0x00, 0x2A, 0x39, 0x9B]

/-- A good RTU exception response to `req`. -/
def refusal : List Byte := [0x01, 0x83, 0x02, 0xC0, 0xF1]

/-- The good response to `req` on TCP with id 0. -/
def answerTcp : List Byte := [0x00, 0x00, 0x00, 0x00, 0x00, 0x05, 0x01, 0x03, 0x02, 0x00, 0x2A]

/-- A TCP exception response to `req` with id 0. -/
def refusalTcp : List Byte := [0x00, 0x00, 0x00, 0x00, 0x00, 0x03, 0x01, 0x83, 0x02]

/-- An RTU line under resync. -/
def resyncing (c : Ctx) : State := { stateIn .rtu .up [c] [] with rxDiscard := true, lineQuiet := false }

theorem test_witness_DecodeEncode :
    Instr.WellFormed 16 (.reqReadCoils 0 0 0xF830 2000) = true := by decide +kernel

theorem test_witness_ReservedWordsRefused :
    ((0x00 : Byte).toNat = 0 ∨ 8 ≤ (0x00 : Byte).toNat) ∧ ((0x08 : Byte).toNat = 0 ∨ 8 ≤ (0x08 : Byte).toNat) ∧
      3 ≤ (0x03 : Byte).toNat ∧ decode 16 ⟨.event, [0x08]⟩ = .error (.reservedEventType 0x08) :=
  ⟨by decide, by decide, by decide, rfl⟩

theorem test_witness_StepRunsDecoded :
    ({ State.reset with inbox := [⟨.event, [0x05]⟩] } : State).inbox = [⟨.event, [0x05]⟩] ∧
      decode 16 ⟨.event, [0x05]⟩ = .ok .evTick ∧ State.reset.inbox = [] ∧ decodeTableWordAt State.reset.handleW 8 0x05 = some .evTick :=
  ⟨rfl, rfl, rfl, by decide +kernel⟩

theorem test_witness_FrameRoundTrip :
    validate req (cfg 0 0) = true := by decide +kernel

theorem test_witness_EncodeFrames :
    validate ⟨0x01, 1, 0xFFFF, 1, [], []⟩ (cfg 0 0) = true ∧ validate ⟨0x03, 1, 0, 125, [], []⟩ (cfg 0 0) = true ∧
      validate ⟨0x06, 1, 0xFFFF, 1, [7], []⟩ (cfg 0 0) = true ∧ validate ⟨0x0F, 1, 0, 1, [], [true]⟩ (cfg 0 0) = true ∧
      validate ⟨0x10, 1, 0, 1, [7], []⟩ (cfg 0 0) = true := by decide +kernel

theorem test_witness_EncodedLengths :
    validate ⟨0x0F, 1, 0, 1, [], [true]⟩ (cfg 0 0) = true := by decide +kernel

theorem test_witness_ValidationTable :
    125 < (List.replicate 126 (0 : Word16)).length ∧ 2000 < (List.replicate 2001 true).length := by decide +kernel

theorem test_witness_RequestRowsTcp :
    State.reset.kind = .tcp ∧ Instr.WellFormed 16 (.reqReadCoils 0 1 0xFFFF 1) = true ∧
      Instr.WellFormed 16 (.reqReadHoldingRegisters 0 1 0xFFFF 1) = true ∧
      Instr.WellFormed 16 (.reqWriteMultipleCoils 0 1 0xFFFF 1 [true]) = true ∧
      Instr.WellFormed 16 (.reqWriteMultipleRegisters 0 1 0xFFFF 1 [7]) = true := by decide +kernel

theorem test_witness_RequestRowsRtu :
    (State.resetOf ⟨.rtu, 1, 16⟩).kind = .rtu ∧ Instr.WellFormed 16 (.reqReadCoils 0 1 0xFFFF 1) = true ∧
      Instr.WellFormed 16 (.reqReadHoldingRegisters 0 1 0xFFFF 1) = true ∧
      Instr.WellFormed 16 (.reqWriteSingleRegister 0 1 0xFFFF 1) = true ∧
      Instr.WellFormed 16 (.reqWriteMultipleCoils 0 1 0xFFFF 1 [true]) = true ∧
      Instr.WellFormed 16 (.reqWriteMultipleRegisters 0 1 0xFFFF 1 [7]) = true := by decide +kernel

theorem test_witness_ResponseExceptionRows :
    Instr.WellFormed 16 (.rspException 0x80 [0x00]) = true ∧ (0x00 : Byte) = 0x80 &&& 0x7F ∧
      Instr.WellFormed 16 (.rspException 0xFF []) = true ∧ (0x7F : Byte) = 0xFF &&& 0x7F := by decide +kernel

theorem test_witness_ResponseRowsAgree :
    ([0x00] : List Byte) ≠ [] ∧ Instr.WellFormed 16 (.rspUnrecognised 0x00 []) = true ∧
      Instr.WellFormed 16 (.rspUnrecognised 0x7F [0x01]) = true := by decide +kernel

theorem test_witness_MatchAccepts :
    validate req (cfg 0 0) = true ∧ matchCheck req 0x01 [0x03, 0x02, 0x00, 0x2A] = .good (.registers [0x002A]) :=
  by decide +kernel

theorem test_witness_MatchException :
    validate req (cfg 0 0) = true ∧ matchCheck req 0x01 [0x83, 0x00] = .exc 0x00 ∧
      (0x81 : Byte).getLsbD 7 = true ∧ (0x81 : Byte) &&& 0x7F ≠ req.fc ∧ (0x02 : Byte) ≠ req.unit := by decide +kernel

theorem test_witness_FramersAgree :
    headerOk answerTcp = true ∧ answerTcp.length = 6 + (rdBE16 answerTcp 4).toNat ∧
      6 ≤ ([0, 0, 0, 1, 0, 2] : List Byte).length ∧ rdBE16 [0, 0, 0, 1, 0, 2] 2 ≠ 0 ∧
      (rdBE16 [0, 0, 0, 0, 0, 1] 4).toNat < 2 ∧ 4 ≤ answer.length ∧ crcOk answer = true ∧
      4 ≤ ([0, 0, 0, 0] : List Byte).length ∧ crcOk [0, 0, 0, 0] = false := by decide +kernel

theorem test_witness_RtuLengthInference :
    ([0x01] : List Byte).length < 2 ∧ 0x80 ≤ (0x80 : Byte).toNat ∧ 0x80 ≤ (0xFF : Byte).toNat ∧
      (0x7F : Byte).toNat < 0x80 ∧ (0x7F : Byte) ≠ 0x06 ∧ (0x7F : Byte) ≠ 0x0F ∧ (0x7F : Byte) ≠ 0x10 ∧
      (0x7F : Byte) ≠ 0x01 ∧ (0x7F : Byte) ≠ 0x03 := by decide +kernel

theorem test_witness_ExecuteRefused_invalid :
    State.reset.legal = true ∧ validate { req with qty := 126 } (cfg 0 0) = false := by decide +kernel

theorem test_witness_ExecuteRefused_handle :
    ∃ s : State, s = stateIn .tcp .up [ctxIn .awaitingResponse 5 0 0 0, Ctx.reset] [] ∧ s.legal = true ∧
      validate req (cfg 0 0) = true ∧ ∃ c ∈ s.ctxs, c.phase ≠ .idle ∧ c.phase ≠ .draining ∧ c.handle = 5 :=
  ⟨_, rfl, by decide +kernel⟩

theorem test_witness_ExecuteRefused_full :
    ∃ s : State, s = stateIn .rtu .up [ctxIn .draining 5 0 0 0] [] ∧ s.legal = true ∧
      validate req (cfg 0 0) = true ∧ ∀ c ∈ s.ctxs, c.phase ≠ .idle :=
  ⟨_, rfl, by decide +kernel⟩

theorem test_witness_ExecuteWaits_down :
    (State.reset).legal = true ∧ validate req (cfg 0 0) = true ∧
      (∀ c ∈ (State.reset).ctxs, c.phase ≠ .idle → c.phase ≠ .draining → c.handle ≠ 9) ∧
      0 < (State.reset).ctxs.length ∧ ((State.reset).ctx 0).phase = .idle ∧
      (∀ j < 0, ((State.reset).ctx j).phase ≠ .idle) ∧
      (State.reset).link = .down := by decide +kernel

theorem test_witness_ExecuteWaits_opening :
    ∃ s : State, s = stateIn .tcp .opening [ctxIn .linkWait 5 0 0 0, Ctx.reset] [] ∧ s.legal = true ∧
      validate req (cfg 0 0) = true ∧ (∀ c ∈ s.ctxs, c.phase ≠ .idle → c.phase ≠ .draining → c.handle ≠ 9) ∧
      1 < s.ctxs.length ∧ (s.ctx 1).phase = .idle ∧ (∀ j < 1, (s.ctx j).phase ≠ .idle) ∧ s.link = .opening :=
  ⟨_, rfl, by decide +kernel⟩

theorem test_witness_ExecuteWaits_resync :
    ∃ s : State, s = resyncing Ctx.reset ∧ s.legal = true ∧ validate req (cfg 0 0) = true ∧
      (∀ c ∈ s.ctxs, c.phase ≠ .idle → c.phase ≠ .draining → c.handle ≠ 9) ∧ 0 < s.ctxs.length ∧
      (s.ctx 0).phase = .idle ∧ (∀ j < 0, (s.ctx j).phase ≠ .idle) ∧ s.link = .up ∧ s.kind = .rtu ∧
      s.rxDiscard = true :=
  ⟨_, rfl, by decide +kernel⟩

theorem test_witness_ExecuteSends_tcp :
    ∃ s : State, s = stateIn .tcp .up [ctxIn .awaitingResponse 5 0 0 0, Ctx.reset] [] ∧ s.legal = true ∧
      validate req (cfg 0 0) = true ∧ (∀ c ∈ s.ctxs, c.phase ≠ .idle → c.phase ≠ .draining → c.handle ≠ 9) ∧
      1 < s.ctxs.length ∧ (s.ctx 1).phase = .idle ∧ (∀ j < 1, (s.ctx j).phase ≠ .idle) ∧ s.link = .up ∧
      s.kind = .tcp ∧ (s.ctx 1).txn = .none :=
  ⟨_, rfl, by decide +kernel⟩

theorem test_witness_ExecuteSends_rtu :
    ∃ s : State, s = stateIn .rtu .up [Ctx.reset] [] ∧ s.legal = true ∧ validate req (cfg 0 0) = true ∧
      (∀ c ∈ s.ctxs, c.phase ≠ .idle → c.phase ≠ .draining → c.handle ≠ 9) ∧ 0 < s.ctxs.length ∧
      (s.ctx 0).phase = .idle ∧ (∀ j < 0, (s.ctx j).phase ≠ .idle) ∧ s.link = .up ∧ s.kind = .rtu ∧
      s.rxDiscard = false :=
  ⟨_, rfl, by decide +kernel⟩

theorem test_witness_FreshTransactionId :
    ∃ s : State, s = stateIn .tcp .up [ctxIn .awaitingResponse 5 0 0 0, Ctx.reset] [] ∧ s.kind = .tcp ∧
      s.ctxs.length ≤ 65535 ∧ 1 < s.ctxs.length ∧ (s.ctx 1).txn ≠ .pending :=
  ⟨_, rfl, by decide +kernel⟩

theorem test_witness_CancelEffects_unknown :
    ∃ s : State, s = stateIn .rtu .up [ctxIn .draining 5 0 0 0] [] ∧ s.legal = true ∧
      ∀ c ∈ s.ctxs, c.phase ≠ .idle → c.phase ≠ .draining → c.handle ≠ 0 :=
  ⟨_, rfl, by decide +kernel⟩

theorem test_witness_CancelEffects_rtu :
    ∃ s : State, s = stateIn .rtu .up [ctxIn .awaitingResponse 5 0 0 1] [] ∧ s.Inv ∧ 0 < s.ctxs.length ∧
      (s.ctx 0).phase ≠ .idle ∧ (s.ctx 0).phase ≠ .draining ∧ (s.ctx 0).handle = 5 :=
  ⟨_, rfl, by decide +kernel⟩

theorem test_witness_CancelEffects_tcp :
    ∃ s : State, s = stateIn .tcp .opening [Ctx.reset, ctxIn .backoff 5 1 1 0] [] ∧ s.Inv ∧ 1 < s.ctxs.length ∧
      (s.ctx 1).phase ≠ .idle ∧ (s.ctx 1).phase ≠ .draining ∧ (s.ctx 1).handle = 5 :=
  ⟨_, rfl, by decide +kernel⟩

theorem test_witness_RxByteNotTaken :
    (stateIn .rtu .opening [Ctx.reset] []).legal = true ∧ (stateIn .rtu .opening [Ctx.reset] []).link ≠ .up ∧
      (stateIn .tcp .up [Ctx.reset] []).legal = true ∧ (stateIn .tcp .up [Ctx.reset] []).kind = .tcp :=
  by decide +kernel

theorem test_witness_TcpByteCollected_first :
    ∃ s : State, s = stateIn .tcp .up [Ctx.reset] ([]) ∧ s.legal = true ∧ s.rxbuf.wf = true ∧ s.kind = .tcp ∧
      s.link = .up ∧ s.rxlen < 260 ∧ (s.rxlen + 1 < 6 ∨ (s.rxlen + 1 = 6 ∧
      headerOk (s.received 0x00) = true) ∨ (6 < s.rxlen + 1 ∧
      s.rxlen + 1 ≠ 6 + (rdBE16 (s.received 0x00) 4).toNat)) :=
  ⟨_, rfl, by decide +kernel⟩

theorem test_witness_TcpByteCollected_header :
    ∃ s : State, s = stateIn .tcp .up [Ctx.reset] (answerTcp.take 5) ∧ s.legal = true ∧ s.rxbuf.wf = true ∧
      s.kind = .tcp ∧ s.link = .up ∧ s.rxlen < 260 ∧ (s.rxlen + 1 < 6 ∨ (s.rxlen + 1 = 6 ∧
      headerOk (s.received 0x05) = true) ∨ (6 < s.rxlen + 1 ∧
      s.rxlen + 1 ≠ 6 + (rdBE16 (s.received 0x05) 4).toNat)) :=
  ⟨_, rfl, by decide +kernel⟩

theorem test_witness_TcpByteCollected_body :
    ∃ s : State, s = stateIn .tcp .up [Ctx.reset] (answerTcp.take 6) ∧ s.legal = true ∧ s.rxbuf.wf = true ∧
      s.kind = .tcp ∧ s.link = .up ∧ s.rxlen < 260 ∧ (s.rxlen + 1 < 6 ∨ (s.rxlen + 1 = 6 ∧
      headerOk (s.received 0x01) = true) ∨ (6 < s.rxlen + 1 ∧
      s.rxlen + 1 ≠ 6 + (rdBE16 (s.received 0x01) 4).toNat)) :=
  ⟨_, rfl, by decide +kernel⟩

theorem test_witness_TcpByteCollected_last_but_one :
    ∃ s : State, s = stateIn .tcp .up [Ctx.reset] (answerTcp.take 9) ∧ s.legal = true ∧ s.rxbuf.wf = true ∧
      s.kind = .tcp ∧ s.link = .up ∧ s.rxlen < 260 ∧ (s.rxlen + 1 < 6 ∨ (s.rxlen + 1 = 6 ∧
      headerOk (s.received 0x00) = true) ∨ (6 < s.rxlen + 1 ∧
      s.rxlen + 1 ≠ 6 + (rdBE16 (s.received 0x00) 4).toNat)) :=
  ⟨_, rfl, by decide +kernel⟩

theorem test_witness_TcpResponse_good :
    ∃ s : State, s = stateIn .tcp .up [ctxIn .awaitingResponse 5 1 1 0] (answerTcp.take 10) ∧ s.Inv ∧
      s.kind = .tcp ∧ s.link = .up ∧ s.rxlen < 260 ∧ 6 < s.rxlen + 1 ∧
      s.rxlen + 1 = 6 + (rdBE16 (s.received 0x2A) 4).toNat ∧ 0 < s.ctxs.length ∧
      (s.ctx 0).phase = .awaitingResponse ∧ (s.ctx 0).tid = rdBE16 (s.received 0x2A) 0 ∧
      matchCheck (s.ctx 0).req (byteAt (s.received 0x2A) 6) ((s.received 0x2A).drop 7) = .good (.registers [0x002A]) :=
  ⟨_, rfl, by decide +kernel⟩

theorem test_witness_TcpResponse_exception :
    ∃ s : State, s = stateIn .tcp .up [ctxIn .awaitingResponse 5 1 1 0] (refusalTcp.take 8) ∧ s.Inv ∧
      s.kind = .tcp ∧ s.link = .up ∧ s.rxlen < 260 ∧ 6 < s.rxlen + 1 ∧
      s.rxlen + 1 = 6 + (rdBE16 (s.received 0x02) 4).toNat ∧ 0 < s.ctxs.length ∧
      (s.ctx 0).phase = .awaitingResponse ∧ (s.ctx 0).tid = rdBE16 (s.received 0x02) 0 ∧
      matchCheck (s.ctx 0).req (byteAt (s.received 0x02) 6) ((s.received 0x02).drop 7) = .exc 0x02 :=
  ⟨_, rfl, by decide +kernel⟩

theorem test_witness_TcpStrayFrame :
    ∃ s : State, s = stateIn .tcp .up [Ctx.reset] (answerTcp.take 10) ∧ s.Inv ∧ s.kind = .tcp ∧ s.link = .up ∧
      s.rxlen < 260 ∧ 6 < s.rxlen + 1 ∧ s.rxlen + 1 = 6 + (rdBE16 (s.received 0x2A) 4).toNat ∧
      ∀ c ∈ s.ctxs, c.phase = .awaitingResponse → c.tid ≠ rdBE16 (s.received 0x2A) 0 :=
  ⟨_, rfl, by decide +kernel⟩

theorem test_witness_TcpAbort_header :
    ∃ s : State, s = stateIn .tcp .up [ctxIn .awaitingResponse 5 1 1 0] [0, 0, 0, 0, 0] ∧ s.Inv ∧ s.kind = .tcp ∧
      s.link = .up ∧ s.rxlen < 260 ∧ s.rxlen + 1 = 6 ∧ headerOk (s.received 0x01) = false ∧
      headerOk (s.received 0xFF) = false :=
  ⟨_, rfl, by decide +kernel⟩

theorem test_witness_TcpAbort_mismatch :
    ∃ s : State, s = stateIn .tcp .up [ctxIn .awaitingResponse 5 1 1 0] (refusalTcp.take 7 ++ [0x81]) ∧ s.Inv ∧
      s.kind = .tcp ∧ s.link = .up ∧ s.rxlen < 260 ∧ 6 < s.rxlen + 1 ∧
      s.rxlen + 1 = 6 + (rdBE16 (s.received 0x02) 4).toNat ∧ ∃ c ∈ s.ctxs, c.phase = .awaitingResponse ∧
      c.tid = rdBE16 (s.received 0x02) 0 ∧
      matchCheck c.req (byteAt (s.received 0x02) 6) ((s.received 0x02).drop 7) = .invalid :=
  ⟨_, rfl, by decide +kernel⟩

theorem test_witness_RtuByteTaken_resync :
    ∃ s : State, s = resyncing Ctx.reset ∧ s.legal = true ∧ s.rxbuf.wf = true ∧ s.kind = .rtu ∧ s.link = .up ∧
      s.rxDiscard = true :=
  ⟨_, rfl, by decide +kernel⟩

theorem test_witness_RtuByteTaken_append :
    ∃ s : State, s = stateIn .rtu .up [ctxIn .awaitingResponse 5 1 1 0] (answer.take 5) ∧ s.Inv ∧ s.kind = .rtu ∧
      s.link = .up ∧ s.rxDiscard = false ∧ s.rxlen < 260 ∧
      rtuExpectedLen (s.received 0x39) ≠ .bytes (s.rxlen + 1) :=
  ⟨_, rfl, by decide +kernel⟩

theorem test_witness_RtuResponse_good :
    ∃ s : State, s = stateIn .rtu .up [ctxIn .awaitingResponse 5 1 1 0] (answer.take 6) ∧ s.Inv ∧ s.kind = .rtu ∧
      s.link = .up ∧ s.rxDiscard = false ∧ s.rxlen < 260 ∧
      rtuExpectedLen (s.received 0x9B) = .bytes (s.rxlen + 1) ∧ crcOk (s.received 0x9B) = true ∧
      (s.ctx 0).phase = .awaitingResponse ∧
      matchCheck (s.ctx 0).req (byteAt (s.received 0x9B) 0) (sliceBytes (s.received 0x9B) 1 (s.rxlen - 1)) =
         .good (.registers [0x002A]) :=
  ⟨_, rfl, by decide +kernel⟩

theorem test_witness_RtuResponse_exception :
    ∃ s : State, s = stateIn .rtu .up [ctxIn .awaitingResponse 5 1 1 0] (refusal.take 4) ∧ s.Inv ∧ s.kind = .rtu ∧
      s.link = .up ∧ s.rxDiscard = false ∧ s.rxlen < 260 ∧
      rtuExpectedLen (s.received 0xF1) = .bytes (s.rxlen + 1) ∧ crcOk (s.received 0xF1) = true ∧
      (s.ctx 0).phase = .awaitingResponse ∧
      matchCheck (s.ctx 0).req (byteAt (s.received 0xF1) 0) (sliceBytes (s.received 0xF1) 1 (s.rxlen - 1)) =
         .exc 0x02 :=
  ⟨_, rfl, by decide +kernel⟩

theorem test_witness_RtuStrayFrame :
    ∃ s : State, s = stateIn .rtu .up [ctxIn .draining 0 0 0 1] (answer.take 6) ∧ s.Inv ∧ s.kind = .rtu ∧
      s.link = .up ∧ s.rxDiscard = false ∧ s.rxlen < 260 ∧
      rtuExpectedLen (s.received 0x9B) = .bytes (s.rxlen + 1) ∧ crcOk (s.received 0x9B) = true ∧
      (s.ctx 0).phase ≠ .awaitingResponse :=
  ⟨_, rfl, by decide +kernel⟩

theorem test_witness_RtuBadFrame_overflow :
    ∃ s : State, s = stateIn .rtu .up [ctxIn .awaitingResponse 5 1 1 0] (0x01 :: 0x04 :: List.replicate 258 0x00) ∧
      s.Inv ∧ s.kind = .rtu ∧ s.link = .up ∧ s.rxDiscard = false ∧ s.rxlen = 260 :=
  ⟨_, rfl, by decide +kernel⟩

theorem test_witness_RtuBadFrame_crc :
    ∃ s : State, s = stateIn .rtu .up [ctxIn .awaitingResponse 5 1 1 0] (answer.take 6) ∧ s.Inv ∧ s.kind = .rtu ∧
      s.link = .up ∧ s.rxDiscard = false ∧ s.rxlen < 260 ∧
      rtuExpectedLen (s.received 0x9C) = .bytes (s.rxlen + 1) ∧ crcOk (s.received 0x9C) = false :=
  ⟨_, rfl, by decide +kernel⟩

theorem test_witness_RtuBadFrame_mismatch :
    ∃ s : State,
      s = stateIn .rtu .up [{ ctxIn .awaitingResponse 5 1 1 0 with req := { req with qty := 2 } }] (answer.take 6) ∧
      s.Inv ∧ s.kind = .rtu ∧ s.link = .up ∧ s.rxDiscard = false ∧ s.rxlen < 260 ∧
      rtuExpectedLen (s.received 0x9B) = .bytes (s.rxlen + 1) ∧ crcOk (s.received 0x9B) = true ∧
      (s.ctx 0).phase = .awaitingResponse ∧
      matchCheck (s.ctx 0).req (byteAt (s.received 0x9B) 0) (sliceBytes (s.received 0x9B) 1 (s.rxlen - 1)) =
         .invalid :=
  ⟨_, rfl, by decide +kernel⟩

theorem test_witness_RxIdleEndsResync_sends :
    ∃ s : State, s = resyncing (ctxIn .resyncWait 5 0 0 0) ∧ s.Inv ∧ s.kind = .rtu ∧ s.link = .up ∧
      s.rxDiscard = true ∧ (s.ctx 0).phase = .resyncWait :=
  ⟨_, rfl, by decide +kernel⟩

theorem test_witness_RxIdleEndsResync_other :
    ∃ s : State, s = resyncing (ctxIn .backoff 5 1 1 0) ∧ s.Inv ∧ s.kind = .rtu ∧ s.link = .up ∧
      s.rxDiscard = true ∧ (s.ctx 0).phase ≠ .resyncWait :=
  ⟨_, rfl, by decide +kernel⟩

theorem test_witness_RxIdleEndsResync_quiet :
    ∃ s : State, s = stateIn .rtu .up [Ctx.reset] [] ∧ s.Inv ∧ s.kind = .rtu ∧ s.link = .up ∧
      s.rxDiscard = false ∧ s.rxlen = 0 :=
  ⟨_, rfl, by decide +kernel⟩

theorem test_witness_RxIdleEndsFrame_cut :
    ∃ s : State, s = stateIn .rtu .up [ctxIn .awaitingResponse 5 1 1 0] (answer.take 6) ∧ s.Inv ∧ s.kind = .rtu ∧
      s.link = .up ∧ s.rxDiscard = false ∧ 0 < s.rxlen ∧ rtuExpectedLen s.bufBytes ≠ .silence :=
  ⟨_, rfl, by decide +kernel⟩

theorem test_witness_RxIdleEndsFrame_short :
    ∃ s : State, s = stateIn .rtu .up [ctxIn .awaitingResponse 5 1 1 0] [0x01, 0x04, 0x02] ∧ s.Inv ∧
      s.kind = .rtu ∧ s.link = .up ∧ s.rxDiscard = false ∧ 0 < s.rxlen ∧ rtuExpectedLen s.bufBytes = .silence ∧
      s.rxlen < 4 :=
  ⟨_, rfl, by decide +kernel⟩

theorem test_witness_RxIdleEndsFrame_crc :
    ∃ s : State, s = stateIn .rtu .up [ctxIn .awaitingResponse 5 1 1 0] [0x01, 0x04, 0x02, 0x00] ∧ s.Inv ∧
      s.kind = .rtu ∧ s.link = .up ∧ s.rxDiscard = false ∧ 0 < s.rxlen ∧ rtuExpectedLen s.bufBytes = .silence ∧
      4 ≤ s.rxlen ∧ crcOk s.bufBytes = false :=
  ⟨_, rfl, by decide +kernel⟩

theorem test_witness_RxIdleEndsFrame_unknown :
    ∃ s : State, s = stateIn .rtu .up [ctxIn .awaitingResponse 5 1 1 0] [0x01, 0x04, 0x02, 0x00, 0x01, 0x78, 0xF0] ∧
      s.Inv ∧ s.kind = .rtu ∧ s.link = .up ∧ s.rxDiscard = false ∧ 0 < s.rxlen ∧
      rtuExpectedLen s.bufBytes = .silence ∧ 4 ≤ s.rxlen ∧ crcOk s.bufBytes = true ∧
      (s.ctx 0).phase = .awaitingResponse :=
  ⟨_, rfl, by decide +kernel⟩

theorem test_witness_RxIdleEndsFrame_stray :
    ∃ s : State, s = stateIn .rtu .up [ctxIn .draining 0 0 0 1] [0x01, 0x04, 0x02, 0x00, 0x01, 0x78, 0xF0] ∧
      s.Inv ∧ s.kind = .rtu ∧ s.link = .up ∧ s.rxDiscard = false ∧ 0 < s.rxlen ∧
      rtuExpectedLen s.bufBytes = .silence ∧ 4 ≤ s.rxlen ∧ crcOk s.bufBytes = true ∧
      (s.ctx 0).phase ≠ .awaitingResponse :=
  ⟨_, rfl, by decide +kernel⟩

theorem test_witness_TickAdvancesTimers_mixed :
    ∃ s : State, s = stateIn .tcp .up [ctxIn .awaitingResponse 5 0 0 1, Ctx.reset, ctxIn .backoff 6 1 2 0] [] ∧
      s.legal = true ∧ 2 < s.ctxs.length ∧ (s.ctx 0).dueOnTick = true ∧ (s.ctx 1).phase = .idle ∧
      isTimed (s.ctx 2).phase = true ∧ (s.ctx 2).timer.toNat + 1 < (s.ctx 2).limit.toNat :=
  ⟨_, rfl, by decide +kernel⟩

theorem test_witness_TickAdvancesTimers_none :
    ∃ s : State, s = stateIn .tcp .up [ctxIn .awaitingResponse 5 0 0 0, Ctx.reset, ctxIn .backoff 6 1 2 0] [] ∧
      s.legal = true ∧ ∀ c ∈ s.ctxs, c.dueOnTick = false :=
  ⟨_, rfl, by decide +kernel⟩

theorem test_witness_TickResponseDeadline_retry :
    ∃ s : State, s = stateIn .rtu .up [ctxIn .awaitingResponse 5 1 0 1] [] ∧ s.Inv ∧ 0 < s.ctxs.length ∧
      (s.ctx 0).phase = .awaitingResponse ∧ (s.ctx 0).cfg.timeoutMs.toNat ≤ (s.ctx 0).timer.toNat + 1 ∧
      (s.ctx 0).retriesNow = true ∧ s.kind = .rtu :=
  ⟨_, rfl, by decide +kernel⟩

theorem test_witness_TickResponseDeadline_last :
    ∃ s : State, s = stateIn .tcp .up [ctxIn .awaitingResponse 5 0 0 1] [] ∧ s.Inv ∧ 0 < s.ctxs.length ∧
      (s.ctx 0).phase = .awaitingResponse ∧ (s.ctx 0).cfg.timeoutMs.toNat ≤ (s.ctx 0).timer.toNat + 1 ∧
      (s.ctx 0).hasRetry = false :=
  ⟨_, rfl, by decide +kernel⟩

theorem test_witness_TickBackoffEnds_sends :
    ∃ s : State, s = stateIn .tcp .up [ctxIn .backoff 5 1 1 0] [] ∧ s.Inv ∧ 0 < s.ctxs.length ∧
      (s.ctx 0).phase = .backoff ∧ (s.ctx 0).cfg.retryBackoffMs.toNat ≤ (s.ctx 0).timer.toNat + 1 ∧ s.link = .up ∧
      s.rxDiscard = false :=
  ⟨_, rfl, by decide +kernel⟩

theorem test_witness_TickBackoffEnds_resync :
    ∃ s : State, s = resyncing (ctxIn .backoff 5 1 1 0) ∧ s.Inv ∧ 0 < s.ctxs.length ∧ (s.ctx 0).phase = .backoff ∧
      (s.ctx 0).cfg.retryBackoffMs.toNat ≤ (s.ctx 0).timer.toNat + 1 ∧ s.link = .up ∧ s.rxDiscard = true :=
  ⟨_, rfl, by decide +kernel⟩

theorem test_witness_TickBackoffEnds_down :
    ∃ s : State, s = stateIn .tcp .down [ctxIn .backoff 5 1 1 0] [] ∧ s.Inv ∧ 0 < s.ctxs.length ∧
      (s.ctx 0).phase = .backoff ∧ (s.ctx 0).cfg.retryBackoffMs.toNat ≤ (s.ctx 0).timer.toNat + 1 ∧ s.link ≠ .up ∧
      s.link = .down :=
  ⟨_, rfl, by decide +kernel⟩

theorem test_witness_TickRtuDeadlines_resync :
    ∃ s : State, s = resyncing (ctxIn .resyncWait 5 1 1 1) ∧ s.Inv ∧
      (s.ctx 0).cfg.timeoutMs.toNat ≤ (s.ctx 0).timer.toNat + 1 ∧ (s.ctx 0).phase = .resyncWait :=
  ⟨_, rfl, by decide +kernel⟩

theorem test_witness_TickRtuDeadlines_drain :
    ∃ s : State, s = stateIn .rtu .up [ctxIn .draining 0 0 0 1] [] ∧ s.Inv ∧
      (s.ctx 0).cfg.timeoutMs.toNat ≤ (s.ctx 0).timer.toNat + 1 ∧ (s.ctx 0).phase = .draining :=
  ⟨_, rfl, by decide +kernel⟩

theorem test_witness_TickLinkWaitDeadline :
    ∃ s : State, s = stateIn .tcp .opening [ctxIn .linkWait 5 0 0 1] [] ∧ s.Inv ∧ 0 < s.ctxs.length ∧
      (s.ctx 0).phase = .linkWait ∧ (s.ctx 0).cfg.timeoutMs.toNat ≤ (s.ctx 0).timer.toNat + 1 ∧
      (s.ctx 0).hasRetry = false :=
  ⟨_, rfl, by decide +kernel⟩

theorem test_witness_LinkUpTcp_up :
    ∃ s : State, s = stateIn .tcp .up [ctxIn .awaitingResponse 5 1 1 0] [] ∧ s.Inv ∧ s.link = .up :=
  ⟨_, rfl, by decide +kernel⟩

theorem test_witness_LinkUpTcp_opens :
    ∃ s : State, s = stateIn .tcp .opening [ctxIn .linkWait 5 0 0 0, Ctx.reset, ctxIn .linkWait 6 0 0 1] [] ∧
      s.Inv ∧ s.kind = .tcp ∧ s.link ≠ .up ∧ 1 < s.waiting.length ∧ 1 < s.ctxs.length ∧
      (s.ctx 1).phase ≠ .linkWait :=
  ⟨_, rfl, by decide +kernel⟩

theorem test_witness_LinkUpRtu_waiting :
    ∃ s : State, s = stateIn .rtu .opening [ctxIn .linkWait 5 0 0 0] [] ∧ s.Inv ∧ s.kind = .rtu ∧ s.link ≠ .up ∧
      (s.ctx 0).phase = .linkWait :=
  ⟨_, rfl, by decide +kernel⟩

theorem test_witness_LinkUpRtu_other :
    ∃ s : State, s = stateIn .rtu .down [Ctx.reset] [] ∧ s.Inv ∧ s.kind = .rtu ∧ s.link ≠ .up ∧
      (s.ctx 0).phase ≠ .linkWait :=
  ⟨_, rfl, by decide +kernel⟩

theorem test_witness_LinkDownFailsAll_down :
    (State.reset).Inv ∧
      (State.reset).link = .down := by decide +kernel

theorem test_witness_LinkDownFailsAll_up :
    ∃ s : State, s = stateIn .tcp .up [ctxIn .awaitingResponse 5 1 1 0, ctxIn .backoff 6 1 2 0] [] ∧ s.Inv ∧
      s.link ≠ .down :=
  ⟨_, rfl, by decide +kernel⟩

theorem test_witness_ResetValues :
    (⟨.tcp, 65535, 16⟩ : Params).inRange ∧ (⟨.tcp, 1, 64⟩ : Params).inRange ∧ State.reset.legal = true := by decide +kernel

theorem test_witness_InvariantsAtReset :
    (⟨.rtu, 1, 16⟩ : Params).inRange := by decide +kernel

theorem test_witness_InvariantsKept :
    ({ stateIn .tcp .up [ctxIn .awaitingResponse 5 1 1 0] [] with inbox := [⟨.event, [0x05]⟩] } : State).Inv ∧
      ∃ t, step { stateIn .tcp .up [ctxIn .awaitingResponse 5 1 1 0] [] with inbox := [⟨.event, [0x05]⟩] } = .next t :=
  ⟨by decide +kernel, _, rfl⟩

theorem test_witness_DeadlinesKept :
    ({ stateIn .tcp .up [ctxIn .awaitingResponse 5 1 1 0] [] with inbox := [⟨.event, [0x05]⟩] } : State).DeadlinesAhead ∧
      ∃ t, step { stateIn .tcp .up [ctxIn .awaitingResponse 5 1 1 0] [] with inbox := [⟨.event, [0x05]⟩] } = .next t :=
  ⟨by decide +kernel, _, rfl⟩

/-- An EXECUTE whose handle is the greatest of 16 bits. -/
def widest : PortWord := encode 16 (.evExecute 0xFFFF req (cfg 0 0))

theorem test_witness_HandleWidthKept :
    ({ State.reset with inbox := [widest] } : State).HandlesFit ∧
      ∃ t, step { State.reset with inbox := [widest] } = .next t ∧ (t.ctx 0).handle = 0xFFFF :=
  ⟨by decide +kernel, _, rfl, by decide +kernel⟩

theorem test_witness_EveryInstructionCompletes :
    (stateIn .tcp .up [ctxIn .awaitingResponse 5 1 1 0] []).Inv := by decide +kernel

theorem test_witness_WhoWritesWhat :
    ∃ t, exec .evTick (stateIn .rtu .up [ctxIn .awaitingResponse 5 1 1 0] []) = .next t := ⟨_, rfl⟩

theorem test_witness_LatchedRequestKept :
    (∃ t, exec .evTick (stateIn .rtu .up [ctxIn .awaitingResponse 5 1 1 0] []) = .next t) ∧
      0 < (stateIn .rtu .up [ctxIn .awaitingResponse 5 1 1 0] []).ctxs.length :=
  ⟨⟨_, rfl⟩, by decide⟩

theorem test_witness_OutputsWellFormed :
    ∃ t, exec (.evRxByte 0x2A) (stateIn .tcp .up [ctxIn .awaitingResponse 5 1 1 0] (answerTcp.take 10)) = .next t ∧
      .result ⟨5, .ok, 0, some 0, some (.registers [0x002A])⟩ ∈ t.out :=
  ⟨_, rfl, by decide +kernel⟩

theorem test_witness_OneResultPerExecute :
    ∃ t, exec (.evCancel 5) (stateIn .rtu .up [ctxIn .awaitingResponse 5 1 1 0] []) = .next t ∧
      t.out.countP (Output.isResultOf 5) = 1 :=
  ⟨_, rfl, by decide +kernel⟩

theorem test_witness_EveryExecuteEnds :
    State.reset.Inv ∧ State.reset.DeadlinesAhead ∧ validate req (cfg 1 1) = true ∧
      (∀ c ∈ State.reset.ctxs, c.phase ≠ .idle → c.phase ≠ .draining → c.handle ≠ 5) ∧
      (∃ c ∈ State.reset.ctxs, c.phase = .idle) ∧
      (1 + (cfg 1 1).maxRetries.toNat) * 3 * (cfg 1 1).timeoutMs.toNat +
        (cfg 1 1).maxRetries.toNat * (cfg 1 1).retryBackoffMs.toNat ≤ (List.replicate 13 Instr.evTick).count .evTick :=
  ⟨by decide +kernel, by decide +kernel, by decide +kernel, by decide +kernel, by decide +kernel, by decide +kernel⟩

theorem test_witness_AttemptCount :
    ∃ s : State, s = stateIn .tcp .up [Ctx.reset, Ctx.reset] [] ∧ s.legal = true ∧ s.link = .up ∧
      s.rxDiscard = false ∧ validate req (cfg 2 0) = true ∧ ∀ c ∈ s.ctxs, c.phase = .idle :=
  ⟨_, rfl, by decide +kernel⟩

theorem test_witness_FailureEntry :
    ∃ s : State, s = stateIn .tcp .up [ctxIn .awaitingResponse 5 1 1 0] [] ∧ 0 < s.ctxs.length ∧
      (s.ctx 0).txn = .pending ∧ retryable .timeout = true ∧ retryable .busy = false ∧
      (s.ctx 0).attempt.toNat < (s.ctx 0).cfg.maxRetries.toNat ∧ (s.ctx 0).cfg.retryBackoffMs ≠ 0 ∧
      (ctxIn .awaitingResponse 5 1 0 0).cfg.retryBackoffMs = 0 ∧
      ¬ (ctxIn .awaitingResponse 5 0 0 0).attempt.toNat < (ctxIn .awaitingResponse 5 0 0 0).cfg.maxRetries.toNat :=
  ⟨_, rfl, by decide +kernel⟩

theorem test_witness_FailureReturn :
    0 < (stateIn .tcp .down [Ctx.reset] []).ctxs.length ∧ (stateIn .tcp .down [Ctx.reset] []).link = .down ∧
      0 < (stateIn .tcp .opening [Ctx.reset] []).ctxs.length ∧ (stateIn .tcp .opening [Ctx.reset] []).link = .opening ∧
      0 < (resyncing Ctx.reset).ctxs.length ∧ (resyncing Ctx.reset).link = .up ∧ (resyncing Ctx.reset).kind = .rtu ∧
      (resyncing Ctx.reset).rxDiscard = true ∧ (stateIn .rtu .up [Ctx.reset] []).rxDiscard = false ∧
      (stateIn .rtu .up [Ctx.reset] []).link = .up ∧ (stateIn .tcp .up [Ctx.reset] []).link = .up := by decide +kernel

end Sys2Proof.Tests
end

section
/-! SUPPORT. The fields of a port word: what the encoder writes is what the decoder reads, field after field. -/

namespace Sys2Proof.Machine

/-! ### Reading a field, and stepping over one -/

@[simp] theorem byteAt_cons_zero (b : Byte) (s : List Byte) : byteAt (b :: s) 0 = b := rfl

@[simp] theorem byteAt_cons_succ (b : Byte) (s : List Byte) (i : Nat) : byteAt (b :: s) (i + 1) = byteAt s i := rfl

theorem byteAt_append_length (l s : List Byte) (i : Nat) : byteAt (l ++ s) (l.length + i) = byteAt s i := by
  simp [byteAt, List.getD_eq_getElem?_getD, List.getElem?_append_right]

theorem byteAt_append_left {l : List Byte} {i : Nat} (s : List Byte) (h : i < l.length) :
    byteAt (l ++ s) i = byteAt l i := by
  simp [byteAt, List.getD_eq_getElem?_getD, List.getElem?_append_left h]

@[simp] theorem rdBE16_cons_succ (b : Byte) (s : List Byte) (i : Nat) : rdBE16 (b :: s) (i + 1) = rdBE16 s i := rfl

theorem rdBE16_append_length (l s : List Byte) (i : Nat) : rdBE16 (l ++ s) (l.length + i) = rdBE16 s i := by
  simp [rdBE16, byteAt_append_length, Nat.add_assoc]

/-- The word read most significant byte first from its two bytes. -/
@[simp] theorem rdBE16_be16 (v : Word16) (s : List Byte) : rdBE16 (be16 v ++ s) 0 = v := by
  have whole : v.extractLsb' 8 8 ++ v.extractLsb' 0 8 = v.extractLsb' 0 16 :=
    BitVec.extractLsb'_append_extractLsb'_eq_extractLsb' rfl
  exact whole.trans BitVec.extractLsb'_eq_self

@[simp] theorem byteAt_be16_add (v : Word16) (s : List Byte) (i : Nat) :
    byteAt (be16 v ++ s) (i + 2) = byteAt s i := rfl

@[simp] theorem rdBE16_be16_add (v : Word16) (s : List Byte) (i : Nat) :
    rdBE16 (be16 v ++ s) (i + 2) = rdBE16 s i := rfl

@[simp] theorem drop_be16_add (v : Word16) (s : List Byte) (i : Nat) : (be16 v ++ s).drop (i + 2) = s.drop i := rfl

@[simp] theorem be16_length (v : Word16) : (be16 v).length = 2 := rfl

@[simp] theorem rdBE32_cons_succ (b : Byte) (s : List Byte) (i : Nat) : rdBE32 (b :: s) (i + 1) = rdBE32 s i := by
  simp [rdBE32, Nat.add_right_comm i 1 2]

@[simp] theorem rdBE32_be16_add (v : Word16) (s : List Byte) (i : Nat) : rdBE32 (be16 v ++ s) (i + 2) = rdBE32 s i := by
  simp [rdBE32]

/-- The 32-bit field read most significant byte first from its four bytes. -/
@[simp] theorem rdBE32_be32 (v : Word32) (s : List Byte) : rdBE32 (be32 v ++ s) 0 = v := by
  have high : v.extractLsb' 24 8 ++ v.extractLsb' 16 8 = v.extractLsb' 16 16 :=
    BitVec.extractLsb'_append_extractLsb'_eq_extractLsb' rfl
  have low : v.extractLsb' 8 8 ++ v.extractLsb' 0 8 = v.extractLsb' 0 16 :=
    BitVec.extractLsb'_append_extractLsb'_eq_extractLsb' rfl
  have whole : v.extractLsb' 16 16 ++ v.extractLsb' 0 16 = v.extractLsb' 0 32 :=
    BitVec.extractLsb'_append_extractLsb'_eq_extractLsb' rfl
  calc rdBE32 (be32 v ++ s) 0
      = (v.extractLsb' 24 8 ++ v.extractLsb' 16 8) ++ (v.extractLsb' 8 8 ++ v.extractLsb' 0 8) := rfl
    _ = v.extractLsb' 16 16 ++ v.extractLsb' 0 16 := by rw [high, low]
    _ = v := whole.trans BitVec.extractLsb'_eq_self

@[simp] theorem rdBE16_be32_add (v : Word32) (s : List Byte) (i : Nat) :
    rdBE16 (be32 v ++ s) (i + 4) = rdBE16 s i := rfl

@[simp] theorem rdBE32_be32_add (v : Word32) (s : List Byte) (i : Nat) :
    rdBE32 (be32 v ++ s) (i + 4) = rdBE32 s i := rfl

@[simp] theorem drop_be32_add (v : Word32) (s : List Byte) (i : Nat) : (be32 v ++ s).drop (i + 4) = s.drop i := rfl

@[simp] theorem be32_length (v : Word32) : (be32 v).length = 4 := rfl

/-! ### Packed coils (R160) -/

/-- The number a byte of packed coils stands for, written in binary. -/
theorem coilByte_eq_bits (c : List Bool) (j : Nat) :
    coilByte c j =
      BitVec.ofNat 8 (Nat.bit (c.getD (8 * j) false) (Nat.bit (c.getD (8 * j + 1) false)
        (Nat.bit (c.getD (8 * j + 2) false) (Nat.bit (c.getD (8 * j + 3) false)
        (Nat.bit (c.getD (8 * j + 4) false) (Nat.bit (c.getD (8 * j + 5) false)
        (Nat.bit (c.getD (8 * j + 6) false) (Nat.bit (c.getD (8 * j + 7) false) 0)))))))) := by
  unfold coilByte
  congr 1
  simp only [Nat.bit_val]
  omega

/-- Bit k of byte j is coil 8j + k. -/
theorem coilByte_getLsbD (c : List Bool) (j : Nat) {k : Nat} (hk : k < 8) :
    (coilByte c j).getLsbD k = c.getD (8 * j + k) false := by
  rw [coilByte_eq_bits, BitVec.getLsbD_ofNat, decide_eq_true hk, Bool.true_and]
  interval_cases k <;> simp only [Nat.testBit_bit_succ, Nat.testBit_bit_zero, Nat.add_zero]

@[simp] theorem packCoils_length (c : List Bool) : (packCoils c).length = coilByteCount c.length := by
  simp [packCoils]

theorem byteAt_packCoils (c : List Bool) {j : Nat} (h : j < coilByteCount c.length) :
    byteAt (packCoils c) j = coilByte c j := by
  simp [byteAt, packCoils, List.getD_eq_getElem?_getD, h]

/-- Packed coils unpack to the coils, whatever bytes follow. -/
@[simp] theorem unpackCoils_packCoils (c : List Bool) (s : List Byte) :
    unpackCoils c.length (packCoils c ++ s) = c := by
  apply List.ext_getElem (by simp [unpackCoils])
  intro k hk hc
  have hj : k / 8 < coilByteCount c.length := by unfold coilByteCount; omega
  have hb : byteAt (packCoils c ++ s) (k / 8) = coilByte c (k / 8) := by
    rw [byteAt_append_left s (by simpa using hj), byteAt_packCoils c hj]
  simp [unpackCoils, hb, coilByte_getLsbD c (k / 8) (Nat.mod_lt k (by decide)), Nat.div_add_mod, hc]

/-! ### Packed registers (R161) -/

@[simp] theorem packRegs_cons (v : Word16) (r : List Word16) : packRegs (v :: r) = be16 v ++ packRegs r := rfl

@[simp] theorem packRegs_length (r : List Word16) : (packRegs r).length = 2 * r.length := by
  induction r with
  | nil => rfl
  | cons v r ih => rw [packRegs_cons, List.length_append, be16_length, ih, List.length_cons]; omega

theorem unpackRegs_be16 (n : Nat) (v : Word16) (s : List Byte) :
    unpackRegs (n + 1) (be16 v ++ s) = v :: unpackRegs n s := by
  simp [unpackRegs, List.range_succ_eq_map, Nat.mul_add]

/-- Packed registers unpack to the registers, whatever bytes follow. -/
@[simp] theorem unpackRegs_packRegs (r : List Word16) (s : List Byte) : unpackRegs r.length (packRegs r ++ s) = r := by
  induction r with
  | nil => rfl
  | cons v r ih => rw [packRegs_cons, List.append_assoc, List.length_cons, unpackRegs_be16, ih]

end Sys2Proof.Machine
end

section
/-! SUPPORT. The decoder after the encoder, row by row (30_encoding R95 to R102, R111; 40_crc R130). -/

namespace Sys2Proof

open Sys2Proof.Machine

theorem needBytes_of_le {n : Nat} {s : List Byte} (h : n ≤ s.length) (k : Except DecodeError Instr) :
    needBytes n s k = k := if_pos h

/-! ### Request words -/

/-- The bytes of a request word: function code, address, quantity or value, the data of a multiple write, and the
envelope operands. -/
def requestWord (code : Byte) (a q : Word16) (d : List Byte) (u : Byte) (t : Tid) : List Byte :=
  code :: (be16 a ++ (be16 q ++ (d ++ envelopeBytes u t)))

section
variable (code : Byte) (a q : Word16) (d : List Byte) (u : Byte) (t : Tid)

@[simp] theorem requestWord_length : (requestWord code a q d u t).length = 8 + d.length := by
  simp [requestWord, envelopeBytes]; omega

@[simp] theorem rdBE16_requestWord_addr : rdBE16 (requestWord code a q d u t) 1 = a := by
  simp [requestWord]

@[simp] theorem rdBE16_requestWord_qty : rdBE16 (requestWord code a q d u t) 3 = q := by
  simp [requestWord]

@[simp] theorem byteAt_requestWord_count (n : Byte) : byteAt (requestWord code a q (n :: d) u t) 5 = n := by
  simp [requestWord]

@[simp] theorem drop_requestWord_data (n : Byte) :
    (requestWord code a q (n :: d) u t).drop 6 = d ++ envelopeBytes u t := by
  simp [requestWord]

theorem unitAt_requestWord {i : Nat} (h : i = 5 + d.length) : unitAt (requestWord code a q d u t) i = u := by
  have hd : byteAt (d ++ envelopeBytes u t) d.length = u := byteAt_append_length d _ 0
  rw [h, Nat.add_comm]
  simpa [unitAt, requestWord] using hd

theorem tidAt_requestWord {i : Nat} (h : i = 5 + d.length) : tidAt (requestWord code a q d u t) i = t := by
  have hd : rdBE16 (d ++ envelopeBytes u t) (d.length + 1) = t := 
    (rdBE16_append_length d _ 1).trans (rdBE16_be16 t [])
  rw [h, tidAt, show 5 + d.length + 1 = (d.length + 1) + 5 by omega]
  simpa [requestWord] using hd

end

/-- A request word without data is read field by field, whatever the row makes of the fields. -/
theorem needBytes_requestWord (row : Tid → Byte → Word16 → Word16 → Instr) (code : Byte) (a q : Word16) (u : Byte)
    (t : Tid) :
    needBytes 8 (requestWord code a q [] u t)
        (.ok (row (tidAt (requestWord code a q [] u t) 5) (unitAt (requestWord code a q [] u t) 5)
          (rdBE16 (requestWord code a q [] u t) 1) (rdBE16 (requestWord code a q [] u t) 3))) =
      .ok (row t u a q) := by
  have ht : tidAt (requestWord code a q [] u t) 5 = t := tidAt_requestWord _ _ _ _ _ _ rfl
  have hu : unitAt (requestWord code a q [] u t) 5 = u := unitAt_requestWord _ _ _ _ _ _ rfl
  rw [needBytes_of_le (by simp), ht, hu, rdBE16_requestWord_addr, rdBE16_requestWord_qty]

/-- The byte count of a list that a request carries is not cut to 8 bits (R98, R99). -/
theorem toNat_byteCount {n : Nat} (h : n ≤ 250) : (BitVec.ofNat 8 n).toNat = n := by
  rw [BitVec.toNat_ofNat]
  exact Nat.mod_eq_of_lt (by omega)

theorem coilByteCount_le {n : Nat} (h : n ≤ 2000) : coilByteCount n ≤ 250 := by
  unfold coilByteCount
  omega

/-- R98: the byte count is `ceil(qty/8)`, and the coils are read back from that many bytes. -/
theorem decodeReqCoils_requestWord (code : Byte) {a q : Word16} {cs : List Bool} (u : Byte) (t : Tid)
    (hq : q.toNat ≤ Config.maxCoilQty) (hl : cs.length = q.toNat) :
    decodeReqCoils (requestWord code a q (BitVec.ofNat 8 (packCoils cs).length :: packCoils cs) u t) =
      .ok (.reqWriteMultipleCoils t u a q cs) := by
  have hd : (packCoils cs).length = coilByteCount q.toNat := by rw [packCoils_length, hl]
  have hn : (BitVec.ofNat 8 (packCoils cs).length).toNat = (packCoils cs).length :=
    toNat_byteCount (hd ▸ coilByteCount_le hq)
  have hi : 6 + (packCoils cs).length = 5 + (packCoils cs).length.succ := by omega
  rw [decodeReqCoils, needBytes_of_le (by simp; omega), byteAt_requestWord_count, rdBE16_requestWord_qty,
    rdBE16_requestWord_addr, drop_requestWord_data, hn, if_pos hd, needBytes_of_le (by simp; omega),
    tidAt_requestWord _ _ _ _ _ _ hi, unitAt_requestWord _ _ _ _ _ _ hi, ← hl, unpackCoils_packCoils]

/-- R99: the byte count is `2 * qty`, and the registers are read back from that many bytes. -/
theorem decodeReqRegs_requestWord (code : Byte) {a q : Word16} {rs : List Word16} (u : Byte) (t : Tid)
    (hq : q.toNat ≤ Config.maxRegQty) (hl : rs.length = q.toNat) :
    decodeReqRegs (requestWord code a q (BitVec.ofNat 8 (packRegs rs).length :: packRegs rs) u t) =
      .ok (.reqWriteMultipleRegisters t u a q rs) := by
  have hd : (packRegs rs).length = 2 * q.toNat := by rw [packRegs_length, hl]
  have hn : (BitVec.ofNat 8 (packRegs rs).length).toNat = (packRegs rs).length :=
    toNat_byteCount (hd ▸ Nat.mul_le_mul_left 2 hq)
  have hi : 6 + (packRegs rs).length = 5 + (packRegs rs).length.succ := by omega
  rw [decodeReqRegs, needBytes_of_le (by simp; omega), byteAt_requestWord_count, rdBE16_requestWord_qty,
    rdBE16_requestWord_addr, drop_requestWord_data, hn, if_pos hd, needBytes_of_le (by simp; omega),
    tidAt_requestWord _ _ _ _ _ _ hi, unitAt_requestWord _ _ _ _ _ _ hi, ← hl, unpackRegs_packRegs]

theorem rangeOk_iff (max : Nat) (a q : Word16) :
    rangeOk max a q = true ↔ 1 ≤ q.toNat ∧ q.toNat ≤ max ∧ a.toNat + q.toNat ≤ 65536 := by
  simp [rangeOk, and_assoc]

/-- The encoder's bytes of a multiple write are a request word whose data is the byte count and the packed list. -/
theorem writeBytes_eq (code : Byte) (a q : Word16) (n : Byte) (d : List Byte) (u : Byte) (t : Tid) :
    [code] ++ be16 a ++ be16 q ++ [n] ++ d ++ envelopeBytes u t = requestWord code a q (n :: d) u t := by
  simp [requestWord]

theorem decode_encode_reqWriteMultipleCoils (hw : Nat) (t : Tid) (u : Byte) (a q : Word16) (cs : List Bool)
    (h : Instr.WellFormed hw (.reqWriteMultipleCoils t u a q cs) = true) :
    decode hw (encode hw (.reqWriteMultipleCoils t u a q cs)) = .ok (.reqWriteMultipleCoils t u a q cs) := by
  simp only [Instr.WellFormed, Bool.and_eq_true, rangeOk_iff, beq_iff_eq] at h
  obtain ⟨⟨-, hq, -⟩, hl⟩ := h
  rw [encode, writeBytes_eq]
  exact decodeReqCoils_requestWord 0x0F u t hq hl

theorem decode_encode_reqWriteMultipleRegisters (hw : Nat) (t : Tid) (u : Byte) (a q : Word16) (rs : List Word16)
    (h : Instr.WellFormed hw (.reqWriteMultipleRegisters t u a q rs) = true) :
    decode hw (encode hw (.reqWriteMultipleRegisters t u a q rs)) = .ok (.reqWriteMultipleRegisters t u a q rs) := by
  simp only [Instr.WellFormed, Bool.and_eq_true, rangeOk_iff, beq_iff_eq] at h
  obtain ⟨⟨-, hq, -⟩, hl⟩ := h
  rw [encode, writeBytes_eq]
  exact decodeReqRegs_requestWord 0x10 u t hq hl

/-! ### Response words -/

/-- A code with bit 7 set that is none of the five exception codes is RSP_EXCEPTION (R176, R111). -/
theorem decodeResponse_exception {fc : Byte} (p : List Byte) (h7 : fc.getLsbD 7 = true)
    (hfc : excFcInScope fc = false) : decodeResponse (fc :: p) = .ok (.rspException fc p) := by
  have hlow : ∀ c : Byte, c.getLsbD 7 = false → fc ≠ c := by
    rintro c hc rfl
    exact absurd (h7.symm.trans hc) (by decide)
  simp only [excFcInScope, Bool.or_eq_false_iff, beq_eq_false_iff_ne] at hfc
  obtain ⟨⟨⟨⟨h81, h83⟩, h86⟩, h8F⟩, h90⟩ := hfc
  rw [decodeResponse, if_neg (hlow 0x01 rfl), if_neg (hlow 0x03 rfl), if_neg (hlow 0x06 rfl), if_neg (hlow 0x0F rfl),
    if_neg (hlow 0x10 rfl), if_neg h81, if_neg h83, if_neg h86, if_neg h8F, if_neg h90, if_pos h7]

/-- A code with bit 7 clear that is none of the five function codes is RSP_UNRECOGNISED (R175, R118). -/
theorem decodeResponse_unrecognised {fc : Byte} (p : List Byte) (h7 : fc.getLsbD 7 = false)
    (hfc : fcInScope fc = false) : decodeResponse (fc :: p) = .ok (.rspUnrecognised fc p) := by
  have hhigh : ∀ c : Byte, c.getLsbD 7 = true → fc ≠ c := by
    rintro c hc rfl
    exact absurd (h7.symm.trans hc) (by decide)
  simp only [fcInScope, Bool.or_eq_false_iff, beq_eq_false_iff_ne] at hfc
  obtain ⟨⟨⟨⟨h01, h03⟩, h06⟩, h0F⟩, h10⟩ := hfc
  rw [decodeResponse, if_neg h01, if_neg h03, if_neg h06, if_neg h0F, if_neg h10, if_neg (hhigh 0x81 rfl),
    if_neg (hhigh 0x83 rfl), if_neg (hhigh 0x86 rfl), if_neg (hhigh 0x8F rfl), if_neg (hhigh 0x90 rfl),
    if_neg (Bool.eq_false_iff.mp h7)]

/-! ### Event words -/

theorem decode_encode_evCancel (hw : Nat) (h : Handle) (hh : h < 2 ^ hw) :
    decode hw (encode hw (.evCancel h)) = .ok (.evCancel h) := by
  have hread : handleAt hw (0x02 :: beBytes (handleBytes hw) h) 1 = h := handleAt_append hw [0x02] h hh
  have hlen : 1 + handleBytes hw ≤ (0x02 :: beBytes (handleBytes hw) h).length := by simp [Nat.add_comm]
  show needBytes _ _ (.ok (.evCancel (handleAt hw (0x02 :: beBytes (handleBytes hw) h) 1))) = _
  rw [hread]
  exact needBytes_of_le hlen _

/-- The bytes of an EXECUTE word before its handle. -/
def executeHead (r : Req) (c : ExecCfg) : List Byte :=
  0x01 :: r.fc :: r.unit :: (be16 r.addr ++ (be16 r.qty ++ (be32 c.timeoutMs ++ (be32 c.maxRetries ++
    (be32 c.retryBackoffMs ++ (be16 (BitVec.ofNat 16 r.regs.length) ++ (be16 (BitVec.ofNat 16 r.coils.length) ++
    (packRegs r.regs ++ packCoils r.coils))))))))

theorem executeBytes_eq (hw : Nat) (h : Handle) (r : Req) (c : ExecCfg) :
    executeBytes hw h r c = executeHead r c ++ beBytes (handleBytes hw) h := by
  simp [executeBytes, executeHead]

theorem Req.portable_iff (r : Req) : r.portable = true ↔ r.regs.length ≤ 125 ∧ r.coils.length ≤ 2000 := by
  simp [Req.portable]

/-- The list lengths that a port can carry are not cut to 16 bits (R102). -/
theorem toNat_listLength {n : Nat} (h : n ≤ 2000) : (BitVec.ofNat 16 n).toNat = n := by
  rw [BitVec.toNat_ofNat]
  exact Nat.mod_eq_of_lt (by omega)

section
variable (r : Req) (c : ExecCfg) (s : List Byte)

theorem executeHead_length : (executeHead r c).length = 23 + 2 * r.regs.length + coilByteCount r.coils.length := by
  simp [executeHead]
  omega

theorem rdBE16_executeHead_regs (h : r.portable = true) :
    (rdBE16 (executeHead r c ++ s) 19).toNat = r.regs.length := by
  have hn : r.regs.length ≤ 2000 := by have := ((Req.portable_iff r).mp h).1; omega
  simpa [executeHead] using toNat_listLength hn

theorem rdBE16_executeHead_coils (h : r.portable = true) :
    (rdBE16 (executeHead r c ++ s) 21).toNat = r.coils.length := by
  simpa [executeHead] using toNat_listLength ((Req.portable_iff r).mp h).2

theorem drop_executeHead_regs : (executeHead r c ++ s).drop 23 = packRegs r.regs ++ (packCoils r.coils ++ s) := by
  simp [executeHead]

theorem drop_executeHead_coils : (executeHead r c ++ s).drop (23 + 2 * r.regs.length) = packCoils r.coils ++ s := by
  rw [← List.drop_drop, drop_executeHead_regs]
  exact List.drop_left' (packRegs_length r.regs)

theorem execReqOf_executeHead (h : r.portable = true) : execReqOf (executeHead r c ++ s) = r := by
  rw [execReqOf, rdBE16_executeHead_regs r c s h, rdBE16_executeHead_coils r c s h, drop_executeHead_regs,
    drop_executeHead_coils, unpackRegs_packRegs, unpackCoils_packCoils]
  simp [executeHead]

theorem execCfgOf_executeHead : execCfgOf (executeHead r c ++ s) = c := by
  simp [execCfgOf, executeHead]

theorem execHandleIdx_executeHead (h : r.portable = true) :
    execHandleIdx (executeHead r c ++ s) = (executeHead r c).length := by
  rw [execHandleIdx, rdBE16_executeHead_regs r c s h, rdBE16_executeHead_coils r c s h, executeHead_length]

end

theorem decode_encode_evExecute (hw : Nat) (h : Handle) (r : Req) (c : ExecCfg) (hh : h < 2 ^ hw)
    (hr : r.portable = true) : decode hw (encode hw (.evExecute h r c)) = .ok (.evExecute h r c) := by
  show decodeExecute hw (executeBytes hw h r c) = _
  have hlen := executeHead_length r c
  rw [executeBytes_eq, decodeExecute, execHandleIdx_executeHead r c _ hr, execReqOf_executeHead r c _ hr,
    execCfgOf_executeHead, handleAt_append hw _ h hh, needBytes_of_le (by simp; omega), needBytes_of_le (by simp)]

/-- Settles O1: each row by the lemma about its fields; a word of its code and raw bytes alone by computing. -/
theorem decodeEncode : Obligations.DecodeEncode := by
  intro hw i hi
  cases i with
  | reqReadCoils t u a q => exact needBytes_requestWord .reqReadCoils 0x01 a q u t
  | reqReadHoldingRegisters t u a q => exact needBytes_requestWord .reqReadHoldingRegisters 0x03 a q u t
  | reqWriteSingleRegister t u a v => exact needBytes_requestWord .reqWriteSingleRegister 0x06 a v u t
  | reqWriteMultipleCoils t u a q cs => exact decode_encode_reqWriteMultipleCoils hw t u a q cs hi
  | reqWriteMultipleRegisters t u a q rs => exact decode_encode_reqWriteMultipleRegisters hw t u a q rs hi
  | rspException fc p =>
    simp only [Instr.WellFormed, Bool.and_eq_true, Bool.not_eq_true'] at hi
    exact decodeResponse_exception p hi.1 hi.2
  | rspUnrecognised fc p =>
    simp only [Instr.WellFormed, Bool.and_eq_true, Bool.not_eq_true'] at hi
    exact decodeResponse_unrecognised p hi.1 hi.2
  | evExecute h r c =>
    simp only [Instr.WellFormed, Bool.and_eq_true, handleOk, decide_eq_true_eq] at hi
    exact decode_encode_evExecute hw h r c hi.1 hi.2
  | evCancel h =>
    simp only [Instr.WellFormed, handleOk, decide_eq_true_eq] at hi
    exact decode_encode_evCancel hw h hi
  | _ => rfl

end Sys2Proof
end

section
/-! SUPPORT. One step by what the inbox holds (00_scope R20, 60_exceptions R321), and a delivered table word. -/

namespace Sys2Proof.Machine

theorem step_of_empty {s : State} (h : s.inbox = []) : step s = .next s := by
  simp only [step, h]

theorem step_of_decode {s : State} {w : PortWord} {rest : List PortWord} {i : Instr} (h : s.inbox = w :: rest)
    (hd : decode s.handleW w = .ok i) : step s = exec i { s with inbox := rest } := by
  simp only [step, h, hd]

theorem step_of_error {s : State} {w : PortWord} {rest : List PortWord} {e : DecodeError} (h : s.inbox = w :: rest)
    (hd : decode s.handleW w = .error e) : step s = .refused (.noInstruction e) := by
  simp only [step, h, hd]

/-- What a step that answers a next state did: it held the state, or it ran the instruction of the first word. -/
theorem step_next {s t : State} (e : step s = .next t) :
    s.inbox = [] ∧ t = s ∨
      ∃ w rest i, s.inbox = w :: rest ∧ decode s.handleW w = .ok i ∧ exec i { s with inbox := rest } = .next t := by
  cases hin : s.inbox with
  | nil =>
    rw [step_of_empty hin] at e
    cases e
    exact .inl ⟨rfl, rfl⟩
  | cons w rest =>
    cases hd : decode s.handleW w with
    | error err =>
      rw [step_of_error hin hd] at e
      cases e
    | ok i =>
      rw [step_of_decode hin hd] at e
      exact .inr ⟨w, rest, i, rfl, hd, e⟩

theorem decode?_eq_some {hw : Nat} {w : PortWord} {i : Instr} : decode? hw w = some i ↔ decode hw w = .ok i := by
  unfold decode?
  cases decode hw w <;> simp

/-- A table word delivered ahead of every other is taken by the next step, which leaves the inbox as it was. -/
theorem step_withFetchWord {s : State} {nbits w : Nat} {i : Instr} (h : decodeTableWordAt s.handleW nbits w = some i) :
    step (s.withFetchWord nbits w) = exec i s :=
  step_of_decode (s := s.withFetchWord nbits w) rfl (decode?_eq_some.mp h)

/-- Settles O4: each clause is what one step does with that inbox. -/
theorem stepRunsDecoded : Obligations.StepRunsDecoded :=
  ⟨fun _ _ _ _ => step_of_decode, fun _ => step_of_empty, fun _ _ _ _ => step_withFetchWord, fun _ _ => rfl⟩

end Sys2Proof.Machine
end

section
/-! SUPPORT. What an instruction that completes did, said once (00_scope R20). -/

namespace Sys2Proof.Machine

/-- From s the instruction answers t: an event ran its handler in a state of the machine, a CRC operation wrote the
register, and every other row only returned a value. -/
inductive Completes (s t : State) : Instr → Prop where
  | codec (i : Instr) (v : CodecValue) : t = { s.begin with codec := v } → Completes s t i
  | crcInit : t = s.begin.crcInit → Completes s t .crcInit
  | crcUpdate (b : Byte) : t = s.begin.crcUpdate b → Completes s t (.crcUpdate b)
  | execute (h : Handle) (r : Req) (c : ExecCfg) : s.legal = true → t = onExecute h r c s.begin →
      Completes s t (.evExecute h r c)
  | cancel (h : Handle) : s.legal = true → t = onCancel h s.begin → Completes s t (.evCancel h)
  | rxByte (b : Byte) : s.legal = true → s.appendOutOfRange = false → t = onRxByte b s.begin →
      Completes s t (.evRxByte b)
  | rxIdle : s.legal = true → t = onRxIdle s.begin → Completes s t .evRxIdle
  | tick : s.legal = true → t = onTick s.begin → Completes s t .evTick
  | linkUp : s.legal = true → t = onLinkUp s.begin → Completes s t .evLinkUp
  | linkDown : s.legal = true → t = onLinkDown s.begin → Completes s t .evLinkDown

theorem runCodec_completes {i : Instr} {v : CodecValue} {s t : State} (e : runCodec v s = .next t) :
    Completes s t i := by
  cases e
  exact .codec i v rfl

theorem execEvRxByte_completes {b : Byte} {s t : State} (e : execEvRxByte b s = .next t) :
    Completes s t (.evRxByte b) := by
  unfold execEvRxByte at e
  split at e
  · cases e
  · rename_i hr
    obtain ⟨hl, ht⟩ := runEvent_next e
    exact .rxByte b hl (by simpa [hl] using hr) ht

theorem exec_completes {i : Instr} {s t : State} (e : exec i s = .next t) : Completes s t i := by
  cases i with
  | crcInit => cases e; exact .crcInit rfl
  | crcUpdate b => cases e; exact .crcUpdate b rfl
  | evExecute h r c => obtain ⟨hl, ht⟩ := runEvent_next e; exact .execute h r c hl ht
  | evCancel h => obtain ⟨hl, ht⟩ := runEvent_next e; exact .cancel h hl ht
  | evRxByte b => exact execEvRxByte_completes e
  | evRxIdle => obtain ⟨hl, ht⟩ := runEvent_next e; exact .rxIdle hl ht
  | evTick => obtain ⟨hl, ht⟩ := runEvent_next e; exact .tick hl ht
  | evLinkUp => obtain ⟨hl, ht⟩ := runEvent_next e; exact .linkUp hl ht
  | evLinkDown => obtain ⟨hl, ht⟩ := runEvent_next e; exact .linkDown hl ht
  | _ => exact runCodec_completes e

end Sys2Proof.Machine
end

section
/-! SUPPORT. What the engine's procedures and the receive side keep, said once for each (45_engine section 2;
43_reassembly). -/

namespace Sys2Proof.Machine

/-! ### Handles that fit -/

/-- A context that the table does not have reads as one at reset, whose handle fits every width. -/
theorem State.HandlesFit.ctx {s : State} (h : s.HandlesFit) (i : Nat) : (s.ctx i).handle < 2 ^ s.handleW := by
  by_cases hi : i < s.ctxs.length
  · exact h.1 _ (List.mem_of_getElem? (State.getElem?_ctx hi))
  · have hr : s.ctx i = Ctx.reset := List.getD_eq_default _ _ (Nat.le_of_not_lt hi)
    rw [hr]
    exact Nat.two_pow_pos _

theorem State.HandlesFit.emit {s : State} {o : Output} (h : s.HandlesFit) (ho : o.handleFits s.handleW = true) :
    (s.emit o).HandlesFit := by
  refine ⟨h.1, fun p hp => ?_⟩
  rcases List.mem_append.mp hp with hp | hp
  · exact h.2 p hp
  · rw [List.mem_singleton.mp hp]
    exact ho

theorem State.HandlesFit.modCtx {s : State} (i : Nat) {f : Ctx → Ctx} (h : s.HandlesFit)
    (hf : ∀ c : Ctx, c.handle < 2 ^ s.handleW → (f c).handle < 2 ^ s.handleW) : (s.modCtx i f).HandlesFit := by
  refine ⟨fun c hc => ?_, h.2⟩
  obtain ⟨k, hk, rfl⟩ := List.mem_iff_getElem.mp hc
  have hc := h.1 _ (List.getElem_mem (l := s.ctxs) (by simpa using hk : k < s.ctxs.length))
  simp only [State.modCtx_ctxs, List.getElem_modify]
  split
  · exact hf _ hc
  · exact hc

/-! ### The relation -/

/-- What the engine's procedures and the receive side after an append leave as it was from s to t: the parameters, the
inbox, the stored bytes, the register crc and the width of the handles; an open session stays open and one that is not
open is not opened; and only a TCP block with an open session moves the counter of the ids. -/
structure Kept (s t : State) : Prop where
  kind : t.kind = s.kind
  handleW : t.handleW = s.handleW
  inbox : t.inbox = s.inbox
  rxbuf : t.rxbuf = s.rxbuf
  crc : t.crc = s.crc
  length : t.ctxs.length = s.ctxs.length
  handles : s.HandlesFit → t.HandlesFit
  up : t.link = .up ↔ s.link = .up
  tidCtr : s.kind = .rtu ∨ s.link ≠ .up → t.tidCtr = s.tidCtr

theorem Kept.refl (s : State) : Kept s s := ⟨rfl, rfl, rfl, rfl, rfl, rfl, id, Iff.rfl, fun _ => rfl⟩

theorem Kept.trans {s t u : State} (h : Kept s t) (k : Kept t u) : Kept s u where
  kind := k.kind.trans h.kind
  handleW := k.handleW.trans h.handleW
  inbox := k.inbox.trans h.inbox
  rxbuf := k.rxbuf.trans h.rxbuf
  crc := k.crc.trans h.crc
  length := k.length.trans h.length
  handles := k.handles ∘ h.handles
  up := k.up.trans h.up
  tidCtr := fun hs => by
    have ht : t.kind = .rtu ∨ t.link ≠ .up := by rwa [h.kind, ne_eq, h.up]
    exact (k.tidCtr ht).trans (h.tidCtr hs)

/-- The fill count and the two line bits are the receive side's own. -/
theorem kept_receiver (n : Nat) (d q : Bool) (s : State) :
    Kept s { s with rxlen := n, rxDiscard := d, lineQuiet := q } :=
  ⟨rfl, rfl, rfl, rfl, rfl, rfl, id, Iff.rfl, fun _ => rfl⟩

theorem kept_bufClear (s : State) : Kept s s.bufClear := kept_receiver 0 s.rxDiscard s.lineQuiet s

theorem kept_startDiscard (s : State) : Kept s s.startDiscard := kept_receiver s.rxlen _ s.lineQuiet s

theorem kept_endDiscard (s : State) : Kept s s.endDiscard := kept_receiver s.rxlen false s.lineQuiet s

theorem kept_lineBusy (s : State) : Kept s s.lineBusy := kept_receiver s.rxlen s.rxDiscard false s

theorem kept_lineSilent (s : State) : Kept s s.lineSilent := kept_receiver s.rxlen s.rxDiscard true s

/-- An update of a context that keeps its handle or clears it. -/
theorem kept_modCtx {f : Ctx → Ctx} (hf : ∀ c, (f c).handle = c.handle ∨ (f c).handle = 0) (i : Nat) (s : State) :
    Kept s (s.modCtx i f) where
  kind := rfl
  handleW := rfl
  inbox := rfl
  rxbuf := rfl
  crc := rfl
  length := by simp
  handles := fun h => h.modCtx i fun c hc => by
    rcases hf c with e | e
    · rwa [e]
    · rw [e]; exact Nat.two_pow_pos _
  up := Iff.rfl
  tidCtr := fun _ => rfl

/-- An update of a context that does not write its handle. -/
theorem kept_modCtx_handle (i : Nat) (s : State) {f : Ctx → Ctx} (hf : ∀ c, (f c).handle = c.handle := by intro; rfl) :
    Kept s (s.modCtx i f) :=
  kept_modCtx (fun c => .inl (hf c)) i s

theorem kept_emit {o : Output} (s : State) (ho : s.HandlesFit → o.handleFits s.handleW = true) : Kept s (s.emit o) :=
  ⟨rfl, rfl, rfl, rfl, rfl, rfl, fun h => h.emit (ho h), Iff.rfl, fun _ => rfl⟩

/-- A RESULT that returns the handle a context holds. -/
theorem kept_emit_result (i : Nat) (r : ExecResult) (s : State) (hr : r.handle = (s.ctx i).handle) :
    Kept s (s.emit (.result r)) :=
  kept_emit s fun h => by
    simp only [Output.handleFits, handleOk, decide_eq_true_eq, hr]
    exact h.ctx i

theorem kept_forCtx {f : Nat → State → State} (hf : ∀ i t, Kept t (f i t)) (s : State) : Kept s (s.forCtx f) :=
  State.forCtx_induct (Kept s) f s (Kept.refl s) fun i t _ ht => ht.trans (hf i t)

/-! ### The engine's procedures -/

theorem kept_setPhase (i : Nat) (p : Phase) (s : State) : Kept s (s.setPhase i p) :=
  kept_modCtx_handle i s

theorem kept_enterPhase (i : Nat) (p : Phase) (s : State) : Kept s (s.enterPhase i p) :=
  kept_modCtx_handle i s

theorem kept_setTxn (i : Nat) (x : Txn) (s : State) : Kept s (s.setTxn i x) := kept_modCtx_handle i s

theorem kept_release (i : Nat) (s : State) : Kept s (release i s) := kept_modCtx (fun _ => .inr rfl) i s

theorem kept_registerTxn (i : Nat) (s : State) (hu : s.link = .up) : Kept s (registerTxn i s) := by
  cases hk : s.kind with
  | tcp =>
    have hm : Kept s (s.modCtx i fun c => { c with tid := s.nextTid, txn := .pending }) :=
      kept_modCtx_handle i s
    rw [registerTxn_tcp i s hk]
    exact ⟨rfl, rfl, rfl, rfl, rfl, hm.length, hm.handles, Iff.rfl, fun h => by simp [hk, hu] at h⟩
  | rtu =>
    rw [registerTxn_rtu i s hk]
    exact kept_modCtx_handle i s

theorem kept_sendFrame (i : Nat) (s : State) : Kept s (sendFrame i s) := by
  have hsend : ∀ (l : List Byte) (u : State), Kept u ((u.emit (.txFrame l)).enterPhase i .awaitingResponse) :=
    fun l u => (kept_emit u fun _ => rfl).trans (kept_enterPhase i _ _)
  unfold sendFrame
  split
  · exact hsend _ s
  · exact (kept_bufClear s).trans (hsend _ s.bufClear)

/-- `sending!` (R261). -/
theorem kept_sendAttempt (i : Nat) (s : State) : Kept s (sendAttempt i s) := by
  have hp := kept_setPhase i .sending s
  cases hl : s.link with
  | down =>
    rw [sendAttempt_of_down i s hl]
    have ho : Kept (s.setPhase i .sending) (((s.setPhase i .sending).emit .reqOpen).setLink .opening) :=
      ⟨rfl, rfl, rfl, rfl, rfl, rfl, (kept_emit _ fun _ => rfl).handles, by simp [hl], fun _ => rfl⟩
    exact (hp.trans ho).trans (kept_enterPhase i _ _)
  | opening =>
    rw [sendAttempt_of_opening i s hl]
    exact hp.trans (kept_enterPhase i _ _)
  | up =>
    rw [sendAttempt_of_up i s hl]
    split
    · exact hp.trans (kept_enterPhase i _ _)
    · exact (hp.trans (kept_registerTxn i _ hl)).trans (kept_sendFrame i _)

/-- `attempt_fail!` (R262). -/
theorem kept_attemptFail (i : Nat) (err : Status) (s : State) : Kept s (attemptFail i err s) := by
  unfold attemptFail
  extract_lets s₁ s₂ s₃ s₄
  have h₁ : Kept s s₁ := kept_setPhase i _ s
  have h₂ : Kept s₁ s₂ := by
    simp only [s₂]
    split
    · exact (kept_setTxn i _ s₁).trans (kept_setTxn i _ _)
    · exact Kept.refl s₁
  have h₃ : Kept s s₃ := (h₁.trans h₂).trans (kept_modCtx_handle i s₂)
  have h₄ : Kept s s₄ := h₃.trans (kept_modCtx_handle i s₃)
  split
  · split
    · exact h₄.trans (kept_sendAttempt i s₄)
    · exact h₄
  · exact (h₃.trans (kept_emit_result i _ s₃ rfl)).trans (kept_release i _)

theorem kept_resolveCompleted (i : Nat) (s : State) : Kept s (resolveCompleted i s) :=
  (kept_setTxn i _ s).trans (kept_setTxn i _ _)

/-- `complete!` for a good response (R263). -/
theorem kept_completeGood (i : Nat) (body : Body) (s : State) : Kept s (completeGood i body s) :=
  (((kept_setPhase i _ s).trans (kept_resolveCompleted i _)).trans (kept_emit_result i _ _ rfl)).trans
    (kept_release i _)

/-- `complete!` for an exception response (R263). -/
theorem kept_completeExc (i : Nat) (code : Byte) (s : State) : Kept s (completeExc i code s) :=
  ((((kept_setPhase i _ s).trans (kept_resolveCompleted i _)).trans (kept_setPhase i _ _)).trans
    (kept_emit_result i _ _ rfl)).trans (kept_release i _)

/-! ### One context's turn -/

theorem kept_tickDeadline (i : Nat) (s : State) : Kept s (tickDeadline i s) := by
  have hawait : Kept s (deadlineAwait i s) :=
    (((kept_setPhase i _ s).trans (kept_setTxn i _ _)).trans (kept_setTxn i _ _)).trans (kept_attemptFail i _ _)
  have hresync : Kept s (deadlineResync i s) :=
    ((kept_endDiscard s).trans (kept_bufClear _)).trans (kept_sendAttempt i _)
  have hif : ∀ (p : Prop) [Decidable p] (t : State), Kept s t → Kept s (if p then t else s) := by
    intro p _ t ht
    split
    · exact ht
    · exact Kept.refl s
  unfold tickDeadline
  split
  · exact hif _ _ hawait
  · exact hif _ _ (kept_sendAttempt i s)
  · exact hif _ _ hresync
  · exact hif _ _ (kept_attemptFail i _ s)
  · exact hif _ _ (kept_release i s)
  all_goals exact Kept.refl s

/-- One context's turn in TICK (R270). -/
theorem kept_tickCtx (i : Nat) (s : State) : Kept s (tickCtx i s) := by
  unfold tickCtx
  split
  · exact (kept_modCtx_handle i s).trans (kept_tickDeadline i _)
  · exact Kept.refl s

/-- One context's turn in LINK_UP (R275). -/
theorem kept_linkUpCtx (i : Nat) (s : State) : Kept s (linkUpCtx i s) := by
  unfold linkUpCtx
  split
  · exact kept_sendAttempt i s
  · exact Kept.refl s

/-- One context's turn in LINK_DOWN (R276). -/
theorem kept_linkDownCtx (i : Nat) (s : State) : Kept s (linkDownCtx i s) := by
  unfold linkDownCtx
  split
  · exact kept_attemptFail i _ s
  · exact kept_attemptFail i _ s
  · exact kept_sendAttempt i s
  · exact kept_release i s
  all_goals exact Kept.refl s

/-- One context's turn in a TCP abort (R220). -/
theorem kept_tcpAbortCtx (bad : Tid) (i : Nat) (s : State) : Kept s (tcpAbortCtx bad i s) := by
  unfold tcpAbortCtx
  split
  · split <;> exact kept_attemptFail i _ s
  · exact Kept.refl s

/-! ### The RTU receive side -/

theorem kept_rtuStray (s : State) : Kept s (rtuStray s) := kept_emit s fun _ => rfl

/-- `rtu_err!` (R221). -/
theorem kept_rtuErr (err : Status) (s : State) : Kept s (rtuErr err s) := by
  have h := (kept_bufClear s).trans (kept_startDiscard _)
  simp only [rtuErr]
  split
  · exact h.trans (kept_attemptFail 0 _ _)
  · exact h.trans (kept_release 0 _)
  all_goals exact h

theorem kept_rtuAnswer (f : List Byte) (s : State) : Kept s (rtuAnswer f s) := by
  unfold rtuAnswer
  split
  · exact (kept_startDiscard s).trans (kept_attemptFail 0 _ _)
  · exact kept_completeGood 0 _ s
  · exact kept_completeExc 0 _ s

/-- `rtu_frame!` (R213). -/
theorem kept_rtuFrame (f : List Byte) (s : State) : Kept s (rtuFrame f s) := by
  have hstray := (kept_bufClear s).trans (kept_rtuStray _)
  simp only [rtuFrame]
  split
  · exact (kept_bufClear s).trans (kept_rtuAnswer f _)
  · exact hstray.trans (kept_release 0 _)
  all_goals exact hstray

theorem kept_rtuChecked (f : List Byte) (s : State) : Kept s (rtuChecked f s) := by
  unfold rtuChecked
  split
  · exact kept_rtuFrame f s
  · exact kept_rtuErr _ s

/-- `rtu_check!` (R211). -/
theorem kept_rtuCheck (s : State) : Kept s (rtuCheck s) := by
  unfold rtuCheck
  split
  · split
    · exact kept_rtuChecked _ s
    · exact Kept.refl s
  all_goals exact Kept.refl s

/-- `silence_end!` (R215). -/
theorem kept_silenceEnd (s : State) : Kept s (silenceEnd s) := by
  unfold silenceEnd
  split
  · split
    · exact kept_rtuErr _ s
    · exact kept_rtuChecked _ s
  all_goals exact kept_rtuErr _ s

/-- RX_IDLE on an open RTU line (R214). -/
theorem kept_rtuIdle (s : State) : Kept s (rtuIdle s) := by
  simp only [rtuIdle]
  split
  · have h := ((kept_endDiscard s).trans (kept_bufClear _)).trans (kept_lineSilent _)
    split
    · exact h.trans (kept_sendAttempt 0 _)
    · exact h
  · split
    · exact (kept_lineSilent s).trans (kept_silenceEnd _)
    · exact kept_lineSilent s

end Sys2Proof.Machine
end

section
/-! SUPPORT. What each event keeps (45_engine, 43_reassembly). -/

namespace Sys2Proof.Machine

theorem Kept.link_of_up {s t : State} (k : Kept s t) (hu : s.link = .up) : t.link = s.link :=
  (k.up.mpr hu).trans hu.symm

theorem Kept.stored {s t : State} (k : Kept s t) (a : Nat) : t.rxbuf.read a = s.rxbuf.read a := by rw [k.rxbuf]

/-! ### EXECUTE and LINK_UP, which touch the receive side only to send on RTU -/

/-- What an attempt that is sent leaves of the receive side: an RTU send clears the buffer, nothing else is written. -/
structure LineKept (s t : State) : Prop where
  kind : t.kind = s.kind
  lineQuiet : t.lineQuiet = s.lineQuiet
  rxDiscard : t.rxDiscard = s.rxDiscard
  rxlen : s.kind = .tcp → t.rxlen = s.rxlen

theorem LineKept.refl (s : State) : LineKept s s := ⟨rfl, rfl, rfl, fun _ => rfl⟩

theorem LineKept.trans {s t u : State} (h : LineKept s t) (k : LineKept t u) : LineKept s u where
  kind := k.kind.trans h.kind
  lineQuiet := k.lineQuiet.trans h.lineQuiet
  rxDiscard := k.rxDiscard.trans h.rxDiscard
  rxlen := fun hs => (k.rxlen (h.kind.trans hs)).trans (h.rxlen hs)

theorem lineKept_transmit (i : Nat) (s : State) : LineKept s (transmit i s) := by
  have hk := (turn_registerTxn i s).kind
  unfold transmit sendFrame
  split
  · rename_i ht
    rw [registerTxn_tcp i s (hk.symm.trans ht)]
    exact ⟨rfl, rfl, rfl, fun _ => rfl⟩
  · rename_i ht
    rw [registerTxn_rtu i s (hk.symm.trans ht)]
    exact ⟨rfl, rfl, rfl, fun h => by rw [hk.symm.trans ht] at h; cases h⟩

/-- `sending!` (R261). -/
theorem lineKept_sendAttempt (i : Nat) (s : State) : LineKept s (sendAttempt i s) := by
  cases hl : s.link with
  | down => rw [sendAttempt_of_down i s hl]; exact ⟨rfl, rfl, rfl, fun _ => rfl⟩
  | opening => rw [sendAttempt_of_opening i s hl]; exact ⟨rfl, rfl, rfl, fun _ => rfl⟩
  | up =>
    rw [sendAttempt_of_up i s hl]
    split
    · exact ⟨rfl, rfl, rfl, fun _ => rfl⟩
    · have h := lineKept_transmit i (s.setPhase i .sending)
      exact ⟨h.kind, h.lineQuiet, h.rxDiscard, h.rxlen⟩

theorem lineKept_linkUpCtx (i : Nat) (s : State) : LineKept s (linkUpCtx i s) := by
  unfold linkUpCtx
  split
  · exact lineKept_sendAttempt i s
  · exact LineKept.refl s

/-- EXECUTE is refused with a RESULT for its handle and no other effect, or accepted into a context and sent (R250). -/
theorem onExecute_cases (h : Handle) (r : Req) (cfg : ExecCfg) (s : State) :
    (∃ st, onExecute h r cfg s = s.emit (plainResult h st 0)) ∨
      ∃ i, onExecute h r cfg s = sendAttempt i (acceptExecute i h r cfg s) := by
  unfold onExecute
  split
  · exact .inl ⟨_, rfl⟩
  · split
    · exact .inl ⟨_, rfl⟩
    · split
      · exact .inl ⟨_, rfl⟩
      · exact .inr ⟨_, rfl⟩

theorem onLinkUp_cases (s : State) : onLinkUp s = s ∨ onLinkUp s = (s.setLink .up).forCtx linkUpCtx := by
  unfold onLinkUp
  split
  · exact .inl rfl
  · exact .inr rfl

/-! ### CANCEL, TICK, LINK_DOWN, RX_IDLE -/

theorem kept_cancelTxn (i : Nat) (s : State) : Kept s (cancelTxn i s) := by
  unfold cancelTxn
  split
  · exact (kept_setTxn i _ s).trans (kept_setTxn i _ _)
  · exact Kept.refl s

/-- A CANCEL returns a handle that a context holds (R266). -/
theorem kept_onCancel (h : Handle) (s : State) : Kept s (onCancel h s) := by
  unfold onCancel
  split
  · exact Kept.refl s
  · rename_i i hi
    obtain ⟨-, hheld, -⟩ := (State.findActive_some s h i).mp hi
    have hh : h = (s.ctx i).handle := by simp at hheld; exact hheld.2.symm
    have hk := (kept_emit_result i ⟨h, .cancelled, 0, none, none⟩ s hh).trans (kept_cancelTxn i _)
    simp only [cancelCtx]
    split
    · exact hk.trans (kept_modCtx (fun _ => .inr rfl) i _)
    · exact hk.trans (kept_release i _)

/-- A CANCEL writes only contexts: the rest of the block is as it was (R266). -/
theorem onCancel_registers (h : Handle) (s : State) :
    ∃ o cs, onCancel h s = { s with out := o, ctxs := cs } := by
  unfold onCancel
  split
  · exact ⟨_, _, rfl⟩
  · simp only [cancelCtx, cancelTxn_eq]
    split <;> exact ⟨_, _, rfl⟩

theorem kept_onTick (s : State) : Kept s (onTick s) := kept_forCtx kept_tickCtx s

theorem onTick_lineQuiet (s : State) : (onTick s).lineQuiet = s.lineQuiet :=
  (State.beforeTurn_frame turn_tickCtx s s.ctxs.length).lineQuiet

/-- RX_IDLE is ignored unless the session is open on RTU (R214). -/
theorem onRxIdle_cases (s : State) :
    onRxIdle s = s ∨ s.link = .up ∧ s.kind = .rtu ∧ onRxIdle s = rtuIdle s := by
  unfold onRxIdle
  split
  · rename_i h
    exact .inr ⟨h.1, h.2, rfl⟩
  · exact .inl rfl

theorem kept_onRxIdle (s : State) : Kept s (onRxIdle s) := by
  rcases onRxIdle_cases s with h | ⟨-, -, h⟩
  · rw [h]; exact Kept.refl s
  · rw [h]; exact kept_rtuIdle s

/-- The state in which a LINK_DOWN takes the contexts in turn (R276). -/
def State.linkLost (s : State) : State := (((s.setLink .down).bufClear).endDiscard).lineSilent

theorem onLinkDown_cases (s : State) : onLinkDown s = s ∨ Kept s.linkLost (onLinkDown s) := by
  unfold onLinkDown
  split
  · exact .inl rfl
  · exact .inr (kept_forCtx kept_linkDownCtx _)

/-! ### RX_BYTE -/

/-- The state in which a TCP abort takes the contexts in turn, but for the clearing of the buffer (R220). -/
def State.closed (s : State) : State := (s.emit .reqClose).setLink .down

theorem kept_tcpAbort (bad : Tid) (s : State) : Kept s.closed (tcpAbort bad s) :=
  (kept_bufClear s.closed).trans (kept_forCtx (kept_tcpAbortCtx bad) _)

theorem completeGood_tidCtr (i : Nat) (body : Body) (s : State) : (completeGood i body s).tidCtr = s.tidCtr := by
  simp [completeGood, resolveCompleted_eq, release]

theorem completeExc_tidCtr (i : Nat) (code : Byte) (s : State) : (completeExc i code s).tidCtr = s.tidCtr := by
  simp [completeExc, resolveCompleted_eq, release]

/-- A complete TCP frame allocates no id while the session is open, or closes the session (R208). -/
theorem tcpDeliver_cases (f : List Byte) (s : State) :
    Kept s (tcpDeliver f s) ∧ (tcpDeliver f s).tidCtr = s.tidCtr ∨ Kept s.closed (tcpDeliver f s) := by
  unfold tcpDeliver
  split
  · exact .inl ⟨kept_emit s fun _ => rfl, rfl⟩
  · split
    · exact .inr (kept_tcpAbort _ s)
    · exact .inl ⟨kept_completeGood _ _ s, completeGood_tidCtr _ _ s⟩
    · exact .inl ⟨kept_completeExc _ _ s, completeExc_tidCtr _ _ s⟩

/-- The MBAP framer (R206, R207). -/
theorem tcpCheck_cases (s : State) :
    Kept s (tcpCheck s) ∧ (tcpCheck s).tidCtr = s.tidCtr ∨ Kept s.closed (tcpCheck s) := by
  unfold tcpCheck
  split
  · exact .inr (kept_tcpAbort _ s)
  · split
    · rcases tcpDeliver_cases s.bufBytes s.bufClear with ⟨h, ht⟩ | h
      · exact .inl ⟨(kept_bufClear s).trans h, ht⟩
      · exact .inr ((kept_bufClear s.closed).trans h)
    · exact .inl ⟨Kept.refl s, rfl⟩

/-- What a received byte keeps whatever the framer makes of it: of the store, every byte but the one it appends. -/
structure ByteKept (s t : State) : Prop where
  kind : t.kind = s.kind
  handleW : t.handleW = s.handleW
  inbox : t.inbox = s.inbox
  crc : t.crc = s.crc
  length : t.ctxs.length = s.ctxs.length
  handles : s.HandlesFit → t.HandlesFit
  stored : ∀ a, a ≠ s.rxlen → t.rxbuf.read a = s.rxbuf.read a
  tidCtr : t.tidCtr = s.tidCtr

theorem ByteKept.refl (s : State) : ByteKept s s := ⟨rfl, rfl, rfl, rfl, rfl, id, fun _ _ => rfl, rfl⟩

theorem ByteKept.kept {s u t : State} (h : ByteKept s u) (k : Kept u t) (ht : t.tidCtr = u.tidCtr) : ByteKept s t where
  kind := k.kind.trans h.kind
  handleW := k.handleW.trans h.handleW
  inbox := k.inbox.trans h.inbox
  crc := k.crc.trans h.crc
  length := k.length.trans h.length
  handles := k.handles ∘ h.handles
  stored := fun a ha => (k.stored a).trans (h.stored a ha)
  tidCtr := ht.trans h.tidCtr

theorem byteKept_bufAppend (b : Byte) (s : State) : ByteKept s (s.bufAppend b) :=
  ⟨rfl, rfl, rfl, rfl, rfl, id, fun a ha => Memory.read_write_other s.rxbuf s.rxlen a b ha, rfl⟩

theorem ByteKept.closed {s u : State} (h : ByteKept s u) : ByteKept s u.closed :=
  ⟨h.kind, h.handleW, h.inbox, h.crc, h.length, fun hs => (h.handles hs).emit rfl, h.stored, h.tidCtr⟩

theorem byteKept_tcpRxByte (b : Byte) (s : State) : ByteKept s (tcpRxByte b s) := by
  have ha := byteKept_bufAppend b s
  rcases tcpCheck_cases (s.bufAppend b) with ⟨h, ht⟩ | h
  · exact ha.kept h ht
  · exact ha.closed.kept h (h.tidCtr (.inr (by simp [State.closed])))

/-- An RTU byte is dropped, ends an over-long frame, or is appended and checked (R210). -/
theorem rtuRxByte_cases (b : Byte) (s : State) :
    Kept s (rtuRxByte b s) ∨ Kept (s.bufAppend b) (rtuRxByte b s) := by
  simp only [rtuRxByte]
  split
  · exact .inl (kept_lineBusy s)
  · split
    · exact .inl ((kept_lineBusy s).trans (kept_rtuErr _ _))
    · exact .inr ((kept_lineBusy (s.bufAppend b)).trans (kept_rtuCheck _))

theorem byteKept_rtuRxByte (b : Byte) (s : State) (hk : s.kind = .rtu) : ByteKept s (rtuRxByte b s) := by
  rcases rtuRxByte_cases b s with h | h
  · exact (ByteKept.refl s).kept h (h.tidCtr (.inl hk))
  · exact (byteKept_bufAppend b s).kept h (h.tidCtr (.inl hk))

theorem rtuRxByte_link (b : Byte) (s : State) (hu : s.link = .up) : (rtuRxByte b s).link = s.link := by
  rcases rtuRxByte_cases b s with h | h
  · exact h.link_of_up hu
  · exact h.link_of_up hu

/-- RX_BYTE (R205): ignored unless the session is open, else handed to the framer of the kind. -/
theorem onRxByte_cases (b : Byte) (s : State) :
    onRxByte b s = s ∨ s.kind = .tcp ∧ onRxByte b s = tcpRxByte b s ∨
      s.link = .up ∧ s.kind = .rtu ∧ onRxByte b s = rtuRxByte b s := by
  unfold onRxByte
  split
  · rename_i hu
    split
    · rename_i hk
      exact .inr (.inl ⟨hk, rfl⟩)
    · rename_i hk
      exact .inr (.inr ⟨hu, hk, rfl⟩)
  · exact .inl rfl

theorem byteKept_onRxByte (b : Byte) (s : State) : ByteKept s (onRxByte b s) := by
  rcases onRxByte_cases b s with h | ⟨-, h⟩ | ⟨-, hk, h⟩
  · rw [h]; exact ByteKept.refl s
  · rw [h]; exact byteKept_tcpRxByte b s
  · rw [h]; exact byteKept_rtuRxByte b s hk

/-- On RTU a received byte leaves the session as it is. -/
theorem onRxByte_link_rtu (b : Byte) (s : State) (hk : s.kind = .rtu) : (onRxByte b s).link = s.link := by
  rcases onRxByte_cases b s with h | ⟨ht, -⟩ | ⟨hu, -, h⟩
  · rw [h]
  · rw [hk] at ht; cases ht
  · rw [h]; exact rtuRxByte_link b s hu

end Sys2Proof.Machine
end

section
/-! SUPPORT. The handles a port word can carry, and the handles every instruction keeps within HANDLE_W (00_scope R11,
30_encoding R102, R109). -/

namespace Sys2Proof.Machine

/-- The handle an EXECUTE carries, when a decoder answers one, is one hw bits hold. -/
def executeFits (hw : Nat) : Except DecodeError Instr → Bool
  | .ok (.evExecute h _ _) => handleOk hw h
  | _ => true

theorem executeFits_needBytes {hw : Nat} {k : Except DecodeError Instr} (n : Nat) (s : List Byte)
    (h : executeFits hw k = true) : executeFits hw (needBytes n s k) = true := by
  unfold needBytes
  split
  · exact h
  · rfl

theorem executeFits_ite {hw : Nat} {p : Prop} [Decidable p] {k l : Except DecodeError Instr}
    (hk : executeFits hw k = true) (hl : executeFits hw l = true) : executeFits hw (if p then k else l) = true := by
  split
  · exact hk
  · exact hl

theorem executeFits_decodeExecute (hw : Nat) (s : List Byte) : executeFits hw (decodeExecute hw s) = true :=
  executeFits_needBytes _ _ (executeFits_needBytes _ _ (decide_eq_true (handleAt_lt hw s (execHandleIdx s))))

theorem executeFits_decodeEvent (hw : Nat) (s : List Byte) : executeFits hw (decodeEvent hw s) = true := by
  cases s with
  | nil => rfl
  | cons code s =>
    refine executeFits_ite (executeFits_decodeExecute hw _) ?_
    refine executeFits_ite (executeFits_needBytes _ _ rfl) ?_
    refine executeFits_ite (executeFits_needBytes _ _ rfl) ?_
    iterate 4 refine executeFits_ite rfl ?_
    rfl

theorem executeFits_decodeRequest (hw : Nat) (s : List Byte) : executeFits hw (decodeRequest s) = true := by
  cases s with
  | nil => rfl
  | cons code s =>
    iterate 3 refine executeFits_ite (executeFits_needBytes _ _ rfl) ?_
    iterate 2
      refine executeFits_ite
        (executeFits_needBytes _ _ (executeFits_ite (executeFits_needBytes _ _ rfl) rfl)) ?_
    rfl

theorem executeFits_decodeResponse (hw : Nat) (s : List Byte) : executeFits hw (decodeResponse s) = true := by
  cases s with
  | nil => rfl
  | cons code s =>
    iterate 11 refine executeFits_ite rfl ?_
    rfl

theorem executeFits_decodeCrcOp (hw : Nat) (s : List Byte) : executeFits hw (decodeCrcOp s) = true := by
  cases s with
  | nil => rfl
  | cons code s =>
    refine executeFits_ite rfl (executeFits_ite (executeFits_needBytes _ _ rfl) ?_)
    exact executeFits_ite rfl rfl

/-- Whatever bytes a port word has, the handle of the EXECUTE it carries is HANDLE_W bits wide (R102). -/
theorem decode_executeFits (hw : Nat) (w : PortWord) : executeFits hw (decode hw w) = true := by
  unfold decode
  split
  · exact executeFits_decodeEvent hw _
  · exact executeFits_decodeRequest hw _
  · exact executeFits_decodeResponse hw _
  · exact executeFits_decodeCrcOp hw _

theorem State.HandlesFit.begin {s : State} (h : s.HandlesFit) : s.begin.HandlesFit := ⟨h.1, by simp⟩

theorem onExecute_handlesFit {h : Handle} (r : Req) (cfg : ExecCfg) {s : State} (hs : s.HandlesFit)
    (hh : h < 2 ^ s.handleW) : (onExecute h r cfg s).HandlesFit := by
  rcases onExecute_cases h r cfg s with ⟨st, e⟩ | ⟨i, e⟩
  · rw [e]
    exact hs.emit (decide_eq_true hh)
  · rw [e]
    exact (kept_sendAttempt i _).handles (hs.modCtx i fun _ _ => hh)

theorem onLinkUp_handlesFit {s : State} (hs : s.HandlesFit) : (onLinkUp s).HandlesFit := by
  rcases onLinkUp_cases s with e | e
  · rwa [e]
  · rw [e]; exact (kept_forCtx kept_linkUpCtx _).handles hs

theorem onLinkDown_handlesFit {s : State} (hs : s.HandlesFit) : (onLinkDown s).HandlesFit := by
  rcases onLinkDown_cases s with e | k
  · rwa [e]
  · exact k.handles hs

/-- An instruction as a decoder of the width can answer it keeps every handle within the width. -/
theorem exec_handlesFit {i : Instr} {s t : State} (hs : s.HandlesFit) (hi : executeFits s.handleW (.ok i) = true)
    (e : exec i s = .next t) : t.HandlesFit := by
  cases exec_completes e with
  | codec i v ht => subst ht; exact hs.begin
  | crcInit ht => subst ht; exact hs.begin
  | crcUpdate b ht => subst ht; exact hs.begin
  | execute h r c _ ht => subst ht; exact onExecute_handlesFit r c hs.begin (of_decide_eq_true hi)
  | cancel h _ ht => subst ht; exact (kept_onCancel h _).handles hs.begin
  | rxByte b _ _ ht => subst ht; exact (byteKept_onRxByte b _).handles hs.begin
  | rxIdle _ ht => subst ht; exact (kept_onRxIdle _).handles hs.begin
  | tick _ ht => subst ht; exact (kept_onTick _).handles hs.begin
  | linkUp _ ht => subst ht; exact onLinkUp_handlesFit hs.begin
  | linkDown _ ht => subst ht; exact onLinkDown_handlesFit hs.begin

end Sys2Proof.Machine
end

section
/-! SUPPORT. Which instructions write which register (00_scope R11, R17; 10_state R31 to R37; 43_reassembly R201). -/

namespace Sys2Proof.Machine

/-- The clauses of the statement about who writes what, by name. A clause whose premises exclude the instruction at hand
holds by them. -/
structure WritesOnly (i : Instr) (s t : State) : Prop where
  kind : t.kind = s.kind
  handleW : t.handleW = s.handleW
  length : t.ctxs.length = s.ctxs.length
  inbox : t.inbox = s.inbox
  stored : ∀ a, a ≠ s.rxlen → t.rxbuf.read a = s.rxbuf.read a
  rxbuf : (∀ b, i ≠ .evRxByte b) → t.rxbuf = s.rxbuf := by simp
  lineQuiet : (∀ b, i ≠ .evRxByte b) → i ≠ .evRxIdle → i ≠ .evLinkDown → t.lineQuiet = s.lineQuiet := by simp
  rxDiscard : (∀ b, i ≠ .evRxByte b) → i ≠ .evRxIdle → i ≠ .evLinkDown → i ≠ .evTick →
    t.rxDiscard = s.rxDiscard := by simp
  link : (∀ h r c, i ≠ .evExecute h r c) → (∀ b, i ≠ .evRxByte b) → i ≠ .evTick → i ≠ .evLinkUp → i ≠ .evLinkDown →
    t.link = s.link := by simp
  linkRtu : s.kind = .rtu → (∀ h r c, i ≠ .evExecute h r c) → i ≠ .evTick → i ≠ .evLinkUp → i ≠ .evLinkDown →
    t.link = s.link := by simp
  tidCtr : (∀ h r c, i ≠ .evExecute h r c) → i ≠ .evTick → i ≠ .evLinkUp → t.tidCtr = s.tidCtr := by simp
  tidCtrRtu : s.kind = .rtu → t.tidCtr = s.tidCtr
  rxlen : (∀ h r c, i ≠ .evExecute h r c) → (∀ b, i ≠ .evRxByte b) → i ≠ .evRxIdle → i ≠ .evTick → i ≠ .evLinkUp →
    i ≠ .evLinkDown → t.rxlen = s.rxlen := by simp
  rxlenTcp : s.kind = .tcp → (∀ b, i ≠ .evRxByte b) → i ≠ .evTick → i ≠ .evLinkDown → t.rxlen = s.rxlen := by simp
  crc : i ≠ .crcInit → (∀ b, i ≠ .crcUpdate b) → t.crc = s.crc

/-- A step that writes only contexts and the model's own output ports. -/
theorem writesOnly_contexts (i : Instr) {s : State} (o : List Output) (v : CodecValue) {cs : List Ctx}
    (hl : cs.length = s.ctxs.length) : WritesOnly i s { s with out := o, codec := v, ctxs := cs } where
  kind := rfl
  handleW := rfl
  length := hl
  inbox := rfl
  stored _ _ := rfl
  rxbuf _ := rfl
  lineQuiet _ _ _ := rfl
  rxDiscard _ _ _ _ := rfl
  link _ _ _ _ _ := rfl
  linkRtu _ _ _ _ _ := rfl
  tidCtr _ _ _ := rfl
  tidCtrRtu _ := rfl
  rxlen _ _ _ _ _ _ := rfl
  rxlenTcp _ _ _ _ := rfl
  crc _ _ := rfl

theorem writesOnly_begin (i : Instr) (s : State) : WritesOnly i s s.begin := writesOnly_contexts i [] .none rfl

theorem writesOnly_crc (i : Instr) (s : State) (v : Word16) (hi : i = .crcInit ∨ ∃ b, i = .crcUpdate b) :
    WritesOnly i s { s.begin with crc := v } :=
  { writesOnly_begin i s with
    crc := fun h h' => by
      rcases hi with rfl | ⟨b, rfl⟩
      · exact absurd rfl h
      · exact absurd rfl (h' b) }

/-- EXECUTE and LINK_UP, which send attempts, from a state u that differs from s in contexts, session and outputs. -/
theorem writesOnly_sends {i : Instr} {s u t : State} (hi : (∃ h r c, i = .evExecute h r c) ∨ i = .evLinkUp)
    (hu : ∃ l cs o, u = { s.begin with link := l, ctxs := cs, out := o } ∧ cs.length = s.ctxs.length) (k : Kept u t)
    (kl : LineKept u t) : WritesOnly i s t := by
  obtain ⟨l, cs, o, rfl, hlen⟩ := hu
  rcases hi with ⟨h, r, c, rfl⟩ | rfl
  all_goals exact
    { kind := k.kind, handleW := k.handleW, length := k.length.trans hlen, inbox := k.inbox
      stored := fun a _ => k.stored a
      rxbuf := fun _ => k.rxbuf
      lineQuiet := fun _ _ _ => kl.lineQuiet
      rxDiscard := fun _ _ _ _ => kl.rxDiscard
      tidCtrRtu := fun hk => k.tidCtr (.inl hk)
      rxlenTcp := fun hk _ _ _ => kl.rxlen hk
      crc := fun _ _ => k.crc }

theorem writesOnly_execute (h : Handle) (r : Req) (c : ExecCfg) (s : State) :
    WritesOnly (.evExecute h r c) s (onExecute h r c s.begin) := by
  rcases onExecute_cases h r c s.begin with ⟨st, e⟩ | ⟨i, e⟩
  · rw [e]
    exact writesOnly_contexts _ _ _ rfl
  · rw [e]
    exact writesOnly_sends (.inl ⟨h, r, c, rfl⟩) ⟨_, _, _, rfl, State.length_modCtx s.begin i _⟩
      (kept_sendAttempt i _) (lineKept_sendAttempt i _)

theorem writesOnly_linkUp (s : State) : WritesOnly .evLinkUp s (onLinkUp s.begin) := by
  rcases onLinkUp_cases s.begin with e | e
  · rw [e]
    exact writesOnly_begin _ s
  · rw [e]
    exact writesOnly_sends (.inr rfl) ⟨_, _, _, rfl, rfl⟩ (kept_forCtx kept_linkUpCtx _)
      (State.forCtx_induct (LineKept _) _ _ (LineKept.refl _) fun i u _ hu => hu.trans (lineKept_linkUpCtx i u))

theorem writesOnly_cancel (h : Handle) (s : State) : WritesOnly (.evCancel h) s (onCancel h s.begin) := by
  have hlen := (kept_onCancel h s.begin).length
  obtain ⟨o, cs, e⟩ := onCancel_registers h s.begin
  rw [e] at hlen ⊢
  exact writesOnly_contexts _ _ _ hlen

theorem writesOnly_rxByte (b : Byte) (s : State) : WritesOnly (.evRxByte b) s (onRxByte b s.begin) :=
  have k := byteKept_onRxByte b s.begin
  { kind := k.kind, handleW := k.handleW, length := k.length, inbox := k.inbox
    stored := k.stored
    linkRtu := fun hk _ _ _ _ => onRxByte_link_rtu b s.begin hk
    tidCtr := fun _ _ _ => k.tidCtr
    tidCtrRtu := fun _ => k.tidCtr
    crc := fun _ _ => k.crc }

theorem writesOnly_rxIdle (s : State) : WritesOnly .evRxIdle s (onRxIdle s.begin) := by
  rcases onRxIdle_cases s.begin with e | ⟨hu, hk, e⟩
  · rw [e]
    exact writesOnly_begin _ s
  · rw [e]
    have k := kept_rtuIdle s.begin
    exact
      { kind := k.kind, handleW := k.handleW, length := k.length, inbox := k.inbox
        stored := fun a _ => k.stored a
        rxbuf := fun _ => k.rxbuf
        link := fun _ _ _ _ _ => k.link_of_up hu
        linkRtu := fun _ _ _ _ _ => k.link_of_up hu
        tidCtr := fun _ _ _ => k.tidCtr (.inl hk)
        tidCtrRtu := fun _ => k.tidCtr (.inl hk)
        rxlenTcp := fun ht => by rw [show s.kind = .rtu from hk] at ht; cases ht
        crc := fun _ _ => k.crc }

theorem writesOnly_tick (s : State) : WritesOnly .evTick s (onTick s.begin) :=
  have k := kept_onTick s.begin
  { kind := k.kind, handleW := k.handleW, length := k.length, inbox := k.inbox
    stored := fun a _ => k.stored a
    rxbuf := fun _ => k.rxbuf
    lineQuiet := fun _ _ _ => onTick_lineQuiet s.begin
    tidCtrRtu := fun hk => k.tidCtr (.inl hk)
    crc := fun _ _ => k.crc }

theorem writesOnly_linkDown (s : State) : WritesOnly .evLinkDown s (onLinkDown s.begin) := by
  rcases onLinkDown_cases s.begin with e | k
  · rw [e]
    exact writesOnly_begin _ s
  · have htid := k.tidCtr (.inr (by simp [State.linkLost]))
    exact
      { kind := k.kind, handleW := k.handleW, length := k.length, inbox := k.inbox
        stored := fun a _ => k.stored a
        rxbuf := fun _ => k.rxbuf
        tidCtr := fun _ _ _ => htid
        tidCtrRtu := fun _ => htid
        crc := fun _ _ => k.crc }

theorem exec_writesOnly {i : Instr} {s t : State} (e : exec i s = .next t) : WritesOnly i s t := by
  cases exec_completes e with
  | codec i v ht => subst ht; exact writesOnly_contexts i [] v rfl
  | crcInit ht => subst ht; exact writesOnly_crc _ s _ (.inl rfl)
  | crcUpdate b ht => subst ht; exact writesOnly_crc _ s _ (.inr ⟨b, rfl⟩)
  | execute h r c _ ht => subst ht; exact writesOnly_execute h r c s
  | cancel h _ ht => subst ht; exact writesOnly_cancel h s
  | rxByte b _ _ ht => subst ht; exact writesOnly_rxByte b s
  | rxIdle _ ht => subst ht; exact writesOnly_rxIdle s
  | tick _ ht => subst ht; exact writesOnly_tick s
  | linkUp _ ht => subst ht; exact writesOnly_linkUp s
  | linkDown _ ht => subst ht; exact writesOnly_linkDown s

/-- Settles O51: the clauses of `WritesOnly`, which every instruction that completes meets. -/
theorem whoWritesWhat : Obligations.WhoWritesWhat := by
  intro i s t e
  have w := exec_writesOnly e
  exact ⟨w.kind, w.handleW, w.length, w.inbox, w.stored, w.rxbuf, w.lineQuiet, w.rxDiscard, w.link, w.linkRtu, w.tidCtr,
    w.tidCtrRtu, w.rxlen, w.rxlenTcp, w.crc⟩

/-- Settles O59: a step holds the state or runs an instruction whose handle, as decoded, fits the width. -/
theorem handleWidthKept : Obligations.HandleWidthKept := by
  intro s t hs e
  rcases step_next e with ⟨-, rfl⟩ | ⟨w, rest, i, -, hd, hx⟩
  · exact ⟨rfl, hs⟩
  · have hi : executeFits s.handleW (.ok i) = true := hd ▸ decode_executeFits s.handleW w
    exact ⟨(exec_writesOnly hx).handleW, exec_handlesFit (s := { s with inbox := rest }) hs hi hx⟩

end Sys2Proof.Machine
end

section
/-! SUPPORT. The invariant between steps (10_state R47) context by context: what it asks of one context, and what is
left of it while a context is in its turn. -/

namespace Sys2Proof.Machine

/-! ### One context's own part -/

/-- What R45 and R47 ask of a context whatever the session does. -/
structure Ctx.OwnOk (c : Ctx) : Prop where
  resting : isResting c.phase = true
  txn : c.TxnOk
  latched : c.LatchedOk

theorem Ctx.OwnOk.txn_eq_none {c : Ctx} (h : c.OwnOk) (hp : c.phase ≠ .awaitingResponse) : c.txn = .none := by
  obtain ⟨hval, hiff⟩ := h.txn
  exact hval.resolve_right fun hx => hp (hiff.mp hx)

theorem Ctx.Apart.symm {k : Kind} {c d : Ctx} (h : Ctx.Apart k c d) : Ctx.Apart k d c :=
  ⟨fun ⟨hk, hc, hd, ht⟩ => h.1 ⟨hk, hd, hc, ht.symm⟩, fun ⟨hc, hd, hh⟩ => h.2 ⟨hd, hc, hh.symm⟩⟩

/-- The session and the resync ask nothing of a context that is free or backs off (R47 items 2 to 4). -/
theorem State.linkOk_of_free {s : State} {c : Ctx} (h : c.phase = .idle ∨ c.phase = .backoff) : s.LinkOk c := by
  rcases h with h | h <;> simp [State.LinkOk, h]

theorem State.tableOk_congr {s t : State} (hk : t.kind = s.kind) (hl : t.ctxs.length = s.ctxs.length) :
    t.tableOk = s.tableOk := by
  unfold State.tableOk
  rw [hk, hl]

theorem State.length_of_rtu {s : State} (ht : s.tableOk = true) (hk : s.kind = .rtu) : s.ctxs.length = 1 := by
  simpa [State.tableOk, hk] using ht

theorem State.length_le_of_tableOk {s : State} (ht : s.tableOk = true) : s.ctxs.length ≤ 65535 := by
  cases hk : s.kind with
  | rtu => rw [State.length_of_rtu ht hk]; decide
  | tcp =>
    simp only [State.tableOk, hk, Bool.and_eq_true, decide_eq_true_eq] at ht
    exact ht.2

theorem State.ctx_mem {s : State} {i : Nat} (h : i < s.ctxs.length) : s.ctx i ∈ s.ctxs :=
  List.mem_of_getElem? (State.getElem?_ctx h)

theorem State.exists_ctx_of_mem {s : State} {c : Ctx} (h : c ∈ s.ctxs) : ∃ i < s.ctxs.length, s.ctx i = c := by
  obtain ⟨i, hi, rfl⟩ := List.mem_iff_getElem.mp h
  exact ⟨i, hi, State.ctx_eq_of_getElem? (List.getElem?_eq_getElem hi)⟩

/-! ### The invariant with a context in its turn -/

/-- The invariant of R47 but for the context h, which is in its turn, if any; and the session's demands are made only on
the contexts below n, whose turns in a loop over the contexts are over (R20). -/
structure State.InvBut (h : Option Nat) (n : Nat) (s : State) : Prop where
  table : s.tableOk = true
  own : ∀ j < s.ctxs.length, h ≠ some j → (s.ctx j).OwnOk
  session : ∀ j < s.ctxs.length, h ≠ some j → j < n → s.LinkOk (s.ctx j)
  apart : ∀ j < s.ctxs.length, ∀ k < s.ctxs.length, h ≠ some j → h ≠ some k → j ≠ k →
    Ctx.Apart s.kind (s.ctx j) (s.ctx k)
  receive : s.ReceiveOk

/-- The invariant is the one with no context in its turn and the session's demands on every context. -/
theorem State.inv_iff {s : State} {n : Nat} (hn : s.ctxs.length ≤ n) : s.Inv ↔ s.InvBut none n := by
  constructor
  · rintro ⟨hl, hown, hpair, hrx⟩
    obtain ⟨htable, hrest, -⟩ := (State.legal_iff s).mp hl
    refine ⟨htable, fun j hj _ => ?_, fun j hj _ _ => (hown _ (State.ctx_mem hj)).2.1, ?_, hrx⟩
    · obtain ⟨htxn, -, hlat⟩ := hown _ (State.ctx_mem hj)
      exact ⟨hrest _ (State.ctx_mem hj), htxn, hlat⟩
    · have key : ∀ j < s.ctxs.length, ∀ k < s.ctxs.length, j < k → Ctx.Apart s.kind (s.ctx j) (s.ctx k) := by
        intro j hj k hk hjk
        have := List.pairwise_iff_getElem.mp hpair j k hj hk hjk
        simpa only [State.ctx, List.getD_eq_getElem?_getD, List.getElem?_eq_getElem hj, List.getElem?_eq_getElem hk,
          Option.getD_some] using this
      intro j hj k hk _ _ hne
      rcases Nat.lt_or_gt_of_ne hne with h | h
      · exact key j hj k hk h
      · exact (key k hk j hj h).symm
  · intro h
    have hctx : ∀ c ∈ s.ctxs, c.OwnOk ∧ s.LinkOk c := by
      intro c hc
      obtain ⟨i, hi, rfl⟩ := State.exists_ctx_of_mem hc
      exact ⟨h.own i hi (by simp), h.session i hi (by simp) (by omega)⟩
    have hlen := h.receive.2.2.1
    refine ⟨(State.legal_iff s).mpr ⟨h.table, fun c hc => (hctx c hc).1.resting, hlen⟩,
      fun c hc => ⟨(hctx c hc).1.txn, (hctx c hc).2, (hctx c hc).1.latched⟩, ?_, h.receive⟩
    refine List.pairwise_iff_getElem.mpr fun j k hj hk hjk => ?_
    have := h.apart j hj k hk (by simp) (by simp) (by omega)
    simpa only [State.ctx, List.getD_eq_getElem?_getD, List.getElem?_eq_getElem hj, List.getElem?_eq_getElem hk,
      Option.getD_some] using this

/-- A context's turn begins. -/
theorem State.InvBut.enter {n : Nat} {s : State} (h : s.InvBut none n) (i : Nat) : s.InvBut (some i) n :=
  ⟨h.table, fun j hj _ => h.own j hj (by simp), fun j hj _ => h.session j hj (by simp),
    fun j hj k hk _ _ => h.apart j hj k hk (by simp) (by simp), h.receive⟩

/-- With one context in the table, nothing but the table and the receive side is left while it is in its turn. -/
theorem State.invBut_sole {s : State} {i : Nat} (n : Nat) (ht : s.tableOk = true) (hk : s.kind = .rtu)
    (hi : i < s.ctxs.length) (hr : s.ReceiveOk) : s.InvBut (some i) n := by
  have hl := State.length_of_rtu ht hk
  have hsole : ∀ j < s.ctxs.length, some i = some j := fun j hj => congrArg some (by omega)
  exact ⟨ht, fun j hj h => absurd (hsole j hj) h, fun j hj h => absurd (hsole j hj) h,
    fun j hj _ _ h => absurd (hsole j hj) h, hr⟩

/-- What the context i must be for its turn to end (R47). -/
structure State.Fits (i : Nat) (s : State) : Prop where
  own : (s.ctx i).OwnOk
  session : s.LinkOk (s.ctx i)
  apart : ∀ j < s.ctxs.length, j ≠ i → Ctx.Apart s.kind (s.ctx i) (s.ctx j)

/-- A context's turn ends, and the session's demands hold of it too. -/
theorem State.InvBut.leave {i n m : Nat} {s : State} (h : s.InvBut (some i) n) (hf : s.Fits i)
    (hm : ∀ j < m, j = i ∨ j < n) : s.InvBut none m where
  table := h.table
  own := fun j hj _ => by
    by_cases e : i = j
    · subst e; exact hf.own
    · exact h.own j hj (by simpa using e)
  session := fun j hj _ hjm => by
    by_cases e : i = j
    · subst e; exact hf.session
    · exact h.session j hj (by simpa using e) ((hm j hjm).resolve_left (Ne.symm e))
  apart := fun j hj k hk _ _ hjk => by
    by_cases ej : i = j
    · subst ej; exact hf.apart k hk (Ne.symm hjk)
    · by_cases ek : i = k
      · subst ek; exact (hf.apart j hj hjk).symm
      · exact h.apart j hj k hk (by simpa using ej) (by simpa using ek) hjk
  receive := h.receive

/-- A context whose turn changes nothing and of which the session's demands hold. -/
theorem State.InvBut.next {i : Nat} {s : State} (h : s.InvBut none i) (hl : i < s.ctxs.length → s.LinkOk (s.ctx i)) :
    s.InvBut none (i + 1) :=
  ⟨h.table, h.own, fun j hj hn hji => by
    rcases Nat.lt_succ_iff_lt_or_eq.mp hji with hlt | rfl
    · exact h.session j hj hn hlt
    · exact hl hj, h.apart, h.receive⟩

/-! ### The receive side -/

/-- A cleared buffer meets what the receive side must (R34, R47 items 8 and 9). -/
theorem State.receiveOk_of_cleared {t : State} (hwf : t.rxbuf.wf = true) (hcap : ∀ p ∈ t.rxbuf, p.1 < Config.rxbufCap)
    (h0 : t.rxlen = 0) (htcp : t.kind = .tcp → t.rxDiscard = false)
    (hd : t.rxDiscard = true → t.link = .up ∧ t.lineQuiet = false) : t.ReceiveOk := by
  have hb : t.bufBytes = [] := List.eq_nil_of_length_eq_zero (by rw [State.bufBytes_length, h0])
  refine ⟨hwf, hcap, by omega, fun h => by omega, fun _ => ?_, htcp, hd⟩
  rw [hb]
  rfl

/-- What the receive side must meet is about the buffer, the line bits and the session alone. -/
theorem State.ReceiveOk.congr {s t : State} (h : s.ReceiveOk) (hk : t.kind = s.kind) (hb : t.rxbuf = s.rxbuf)
    (hn : t.rxlen = s.rxlen) (hd : t.rxDiscard = s.rxDiscard)
    (hq : t.rxDiscard = true → t.link = .up ∧ t.lineQuiet = false) : t.ReceiveOk := by
  obtain ⟨hwf, hcap, hlen, htcp, hrtu, hdt, -⟩ := h
  have hbytes : t.bufBytes = s.bufBytes := State.bufBytes_congr hb hn
  exact ⟨hb ▸ hwf, hb ▸ hcap, hn ▸ hlen, by rwa [hk, hn, hbytes], by rwa [hk, hn, hbytes], by rwa [hk, hd], hq⟩

/-! ### What a context's turn keeps -/

/-- A turn of context i that starts or ends no resync, opens a session only from Down, and at most clears the buffer. -/
structure InTurn (i : Nat) (s t : State) : Prop extends Turn i s t where
  discard : t.rxDiscard = s.rxDiscard
  link : t.link = s.link ∨ s.link = .down ∧ t.link = .opening
  rxlen : t.rxlen = s.rxlen ∨ t.rxlen = 0

theorem InTurn.trans {i : Nat} {s t u : State} (h : InTurn i s t) (k : InTurn i t u) : InTurn i s u where
  toTurn := h.toTurn.trans k.toTurn
  discard := k.discard.trans h.discard
  link := by
    rcases k.link with e | ⟨hd, ho⟩
    · rw [e]; exact h.link
    · rcases h.link with e | ⟨-, ho'⟩
      · exact .inr ⟨e ▸ hd, ho⟩
      · rw [ho'] at hd; cases hd
  rxlen := by
    rcases k.rxlen with e | e
    · rw [e]; exact h.rxlen
    · exact .inr e

theorem inTurn_modCtx (i : Nat) (f : Ctx → Ctx) (s : State) : InTurn i s (s.modCtx i f) :=
  ⟨turn_modCtx i f s, rfl, .inl rfl, .inl rfl⟩

theorem inTurn_emit (i : Nat) (o : Output) (s : State) : InTurn i s (s.emit o) :=
  ⟨turn_emit i o s, rfl, .inl rfl, .inl rfl⟩

/-- `sending!` (R261). -/
theorem inTurn_sendAttempt {i : Nat} {s : State} (hi : i < s.ctxs.length) : InTurn i s (sendAttempt i s) := by
  refine ⟨turn_sendAttempt i s, (lineKept_sendAttempt i s).rxDiscard, ?_, ?_⟩
  · cases hl : s.link with
    | down => rw [sendAttempt_down i s hl]; exact .inr ⟨rfl, rfl⟩
    | opening => exact .inl ((sendAttempt_opening i s hl) ▸ hl)
    | up => exact .inl ((kept_sendAttempt i s).up.mpr hl)
  · cases hk : s.kind with
    | tcp => exact .inl ((lineKept_sendAttempt i s).rxlen hk)
    | rtu =>
      cases hl : s.link with
      | down => rw [sendAttempt_down i s hl]; exact .inl rfl
      | opening => rw [sendAttempt_opening i s hl]; exact .inl rfl
      | up =>
        cases hd : s.rxDiscard with
        | true => rw [sendAttempt_resync i s hl hk hd]; exact .inl rfl
        | false => rw [sendAttempt_rtu i s hl hk hd hi]; exact .inr rfl

theorem InTurn.link_up {i : Nat} {s t : State} (h : InTurn i s t) (hu : s.link = .up) : t.link = .up := by
  rcases h.link with e | ⟨hd, -⟩
  · exact e.trans hu
  · rw [hu] at hd; cases hd

theorem InTurn.linkOk {i : Nat} {s t : State} (h : InTurn i s t) {c : Ctx} (hc : s.LinkOk c) : t.LinkOk c := by
  obtain ⟨hup, hopening, hresync, hdrain, hquiet⟩ := hc
  refine ⟨fun hp => h.link_up (hup hp), fun hp => ?_, ?_, ?_, ?_⟩
  · rcases h.link with e | ⟨hd, ho⟩
    · exact e.trans (hopening hp)
    · exact ho
  · rwa [h.kind, h.discard]
  · rwa [h.kind]
  · rwa [h.kind, h.discard]

theorem InTurn.receiveOk {i : Nat} {s t : State} (h : InTurn i s t) (hs : s.ReceiveOk) : t.ReceiveOk := by
  obtain ⟨hwf, hcap, -, -, -, hdt, hd⟩ := id hs
  have hd' : t.rxDiscard = true → t.link = .up ∧ t.lineQuiet = false := by
    rw [h.discard, h.lineQuiet]
    exact fun hx => ⟨h.link_up (hd hx).1, (hd hx).2⟩
  rcases h.rxlen with e | e
  · exact hs.congr h.kind h.rxbuf e h.discard hd'
  · exact State.receiveOk_of_cleared (h.rxbuf ▸ hwf) (h.rxbuf ▸ hcap) e (by rwa [h.kind, h.discard]) hd'

/-- A turn leaves the invariant of the other contexts as it was. -/
theorem State.InvBut.inTurn {i n : Nat} {s t : State} (hs : s.InvBut (some i) n) (h : InTurn i s t) :
    t.InvBut (some i) n := by
  have hctx : ∀ j, some i ≠ some j → t.ctx j = s.ctx j := fun j hj => h.others j fun e => hj (congrArg some e.symm)
  refine ⟨(State.tableOk_congr h.kind h.length).trans hs.table, fun j hj hn => ?_, fun j hj hn hjn => ?_,
    fun j hj k hk hn hn' hjk => ?_, h.receiveOk hs.receive⟩
  · rw [hctx j hn]; exact hs.own j (h.length ▸ hj) hn
  · rw [hctx j hn]; exact h.linkOk (hs.session j (h.length ▸ hj) hn hjn)
  · rw [hctx j hn, hctx k hn', h.kind]
    exact hs.apart j (h.length ▸ hj) k (h.length ▸ hk) hn hn' hjk

/-- The context i holds an execute of its own: a request that passed validation, under a handle no other active context
holds (R250, R251). -/
structure State.Held (i : Nat) (s : State) : Prop where
  valid : validate (s.ctx i).req (s.ctx i).cfg = true
  unshared : ∀ j < s.ctxs.length, j ≠ i → isActive (s.ctx j).phase = true → (s.ctx j).handle ≠ (s.ctx i).handle

theorem State.Held.turn {i : Nat} {s t : State} (hs : s.Held i) (h : Turn i s t) (hr : (t.ctx i).req = (s.ctx i).req)
    (hc : (t.ctx i).cfg = (s.ctx i).cfg) (hh : (t.ctx i).handle = (s.ctx i).handle) : t.Held i := by
  refine ⟨by rw [hr, hc]; exact hs.valid, fun j hj hn ha => ?_⟩
  rw [h.others j hn] at ha ⊢
  rw [hh]
  exact hs.unshared j (h.length ▸ hj) hn ha

theorem State.InvBut.held {i n : Nat} {s : State} (hs : s.InvBut none n) (hi : i < s.ctxs.length)
    (ha : isActive (s.ctx i).phase = true) : s.Held i :=
  ⟨(hs.own i hi (by simp)).latched.1 ha, fun j hj hn hj' he =>
    (hs.apart j hj i hi (by simp) (by simp) hn).2 ⟨hj', ha, he⟩⟩

/-! ### The contexts that end a turn -/

/-- A free context. -/
theorem State.fits_idle {i : Nat} {s : State} (hp : (s.ctx i).phase = .idle) (ht : (s.ctx i).txn = .none) :
    s.Fits i :=
  ⟨⟨by simp [hp, isResting], by simp [Ctx.TxnOk, hp, ht], by simp [Ctx.LatchedOk, hp, isActive]⟩,
    State.linkOk_of_free (.inl hp), fun j _ _ => by simp [Ctx.Apart, hp, ht, isActive]⟩

/-- A drained context: its execute was cancelled while its frame was on the RTU line (R266). -/
theorem State.fits_draining {i : Nat} {s : State} (hp : (s.ctx i).phase = .draining) (ht : (s.ctx i).txn = .none)
    (hc : cfgOk (s.ctx i).cfg = true) (hu : s.link = .up) (hk : s.kind = .rtu) (hd : s.rxDiscard = false) : s.Fits i :=
  ⟨⟨by simp [hp, isResting], by simp [Ctx.TxnOk, hp, ht], by simp [Ctx.LatchedOk, hp, hc, isActive]⟩,
    by simp [State.LinkOk, hp, hu, hk, hd], fun j _ _ => by simp [Ctx.Apart, hp, ht, isActive]⟩

/-- A context that holds an execute and waits for anything but a response. -/
theorem State.fits_waiting {i : Nat} {s : State} (hh : s.Held i) (hr : isResting (s.ctx i).phase = true)
    (hp : (s.ctx i).phase ≠ .awaitingResponse ∧ (s.ctx i).phase ≠ .draining) (ht : (s.ctx i).txn = .none)
    (hl : s.LinkOk (s.ctx i)) : s.Fits i :=
  ⟨⟨hr, by simp [Ctx.TxnOk, hp, ht], fun _ => hh.valid, fun h => absurd h hp.2⟩, hl, fun j hj hn =>
    ⟨by simp [ht], fun ⟨_, ha, he⟩ => hh.unshared j hj hn ha he.symm⟩⟩

/-- A context whose frame was sent under an id that no other Pending transaction has (R232, R261). -/
theorem State.fits_awaiting {i : Nat} {s : State} (hh : s.Held i) (hp : (s.ctx i).phase = .awaitingResponse)
    (ht : (s.ctx i).txn = .pending) (hu : s.link = .up) (hd : s.kind = .rtu → s.rxDiscard = false)
    (hid : s.kind = .tcp → ∀ j < s.ctxs.length, j ≠ i → (s.ctx j).txn = .pending → (s.ctx j).tid ≠ (s.ctx i).tid) :
    s.Fits i :=
  ⟨⟨by simp [hp, isResting], by simp [Ctx.TxnOk, hp, ht], fun _ => hh.valid, by simp [hp]⟩,
    by simpa [State.LinkOk, hp, hu] using hd,
    fun j hj hn => ⟨fun ⟨hk, _, hx, he⟩ => hid hk j hj hn hx he.symm,
      fun ⟨_, ha, he⟩ => hh.unshared j hj hn ha he.symm⟩⟩

end Sys2Proof.Machine
end

section
/-! SUPPORT. The id that `alloc_tid!` returns is free, and each procedure of the engine ends a context's turn in the
invariant (44_registry R232; 45_engine section 2). -/

namespace Sys2Proof.Machine

/-! ### The registry -/

theorem State.tidPending_iff (s : State) (t : Tid) :
    s.tidPending t = true ↔ ∃ c ∈ s.ctxs, c.txn = .pending ∧ c.tid = t := by
  simp [State.tidPending]

/-- The loop of `alloc_tid!` answers a Pending id only when it and all the ids it skipped are Pending (R232). -/
theorem State.tidPending_of_freeTid {s : State} {n : Nat} {t : Tid} (h : s.tidPending (s.freeTid n t) = true) :
    ∀ k ≤ n, s.tidPending (t + BitVec.ofNat 16 k) = true := by
  induction n generalizing t with
  | zero =>
    intro k hk
    obtain rfl : k = 0 := by omega
    simpa [State.freeTid] using h
  | succ n ih =>
    rw [State.freeTid] at h
    split at h
    · rename_i ht
      intro k hk
      cases k with
      | zero => simpa using ht
      | succ k =>
        have hadd : t + BitVec.ofNat 16 (k + 1) = t + 1 + BitVec.ofNat 16 k := by
          rw [Nat.add_comm k 1, BitVec.ofNat_add, BitVec.add_assoc]
          rfl
        rw [hadd]
        exact ih h k (by omega)
    · rename_i ht
      exact absurd h ht

/-- A table of at most 65535 contexts leaves one of its length and one more successive ids free: two of them would
otherwise be one. -/
theorem State.exists_free_tid {s : State} (hlen : s.ctxs.length ≤ 65535) (t : Tid) :
    ∃ k ≤ s.ctxs.length, s.tidPending (t + BitVec.ofNat 16 k) = false := by
  by_contra hall
  have hsub : (List.range (s.ctxs.length + 1)).map (fun k => t + BitVec.ofNat 16 k) ⊆ s.ctxs.map (·.tid) := by
    intro u hu
    obtain ⟨k, hk, rfl⟩ := List.mem_map.mp hu
    have hp : s.tidPending (t + BitVec.ofNat 16 k) = true := by
      by_contra hp
      exact hall ⟨k, Nat.lt_succ_iff.mp (List.mem_range.mp hk), by simpa using hp⟩
    obtain ⟨c, hc, -, e⟩ := (State.tidPending_iff s _).mp hp
    exact List.mem_map.mpr ⟨c, hc, e⟩
  have hnodup : ((List.range (s.ctxs.length + 1)).map fun k => t + BitVec.ofNat 16 k).Nodup := by
    refine List.Nodup.map_on (fun a ha b hb e => ?_) List.nodup_range
    have ha := List.mem_range.mp ha
    have hb := List.mem_range.mp hb
    have e := congrArg BitVec.toNat ((BitVec.add_right_inj t).mp e)
    simp only [BitVec.toNat_ofNat] at e
    omega
  have := (hnodup.subperm hsub).length_le
  simp at this

/-- The id `alloc_tid!` returns is held by no Pending transaction (R232, R47 item 5). -/
theorem State.nextTid_free {s : State} (hlen : s.ctxs.length ≤ 65535) : s.tidPending s.nextTid = false := by
  by_contra h
  obtain ⟨k, hk, hfree⟩ := State.exists_free_tid hlen s.tidCtr
  rw [State.tidPending_of_freeTid ((Bool.not_eq_false _).mp h) k hk] at hfree
  cases hfree

/-! ### The engine's procedures -/

section
variable {i n m : Nat} {s : State}

/-- An update that frees the context ends its turn. -/
theorem State.InvBut.free {f : Ctx → Ctx} (hf : ∀ c, (f c).phase = .idle ∧ (f c).txn = .none)
    (hs : s.InvBut (some i) n) (hi : i < s.ctxs.length) (hm : ∀ j < m, j = i ∨ j < n) :
    (s.modCtx i f).InvBut none m := by
  have hc := State.ctx_modCtx_same s i f hi
  obtain ⟨hp, hx⟩ := hf (s.ctx i)
  exact (hs.inTurn (inTurn_modCtx i f s)).leave (State.fits_idle (hc ▸ hp) (hc ▸ hx)) hm

/-- `release!` ends a turn (R264). -/
theorem State.InvBut.release (hs : s.InvBut (some i) n) (hi : i < s.ctxs.length) (hm : ∀ j < m, j = i ∨ j < n) :
    (release i s).InvBut none m :=
  hs.free (fun _ => ⟨rfl, rfl⟩) hi hm

/-- `sending!` ends the turn of a context that holds an execute and no transaction (R261). -/
theorem State.sendAttempt_fits (ht : s.tableOk = true) (hi : i < s.ctxs.length) (hh : s.Held i)
    (hx : (s.ctx i).txn = .none) : (sendAttempt i s).Fits i := by
  have hturn := turn_sendAttempt i s
  have hheld : ∀ c, (sendAttempt i s).ctx i = c → c.req = (s.ctx i).req → c.cfg = (s.ctx i).cfg →
      c.handle = (s.ctx i).handle → (sendAttempt i s).Held i :=
    fun c hc hr hg hn => hh.turn hturn (hc ▸ hr) (hc ▸ hg) (hc ▸ hn)
  cases hl : s.link with
  | down =>
    have hc : (sendAttempt i s).ctx i = { s.ctx i with phase := .linkWait, timer := 0 } := by
      rw [sendAttempt_down i s hl]; exact State.ctx_modCtx_same s i _ hi
    have ho : (sendAttempt i s).link = .opening := by rw [sendAttempt_down i s hl]
    exact State.fits_waiting (hheld _ hc rfl rfl rfl) (by rw [hc]; rfl) (by rw [hc]; exact ⟨nofun, nofun⟩)
      (by rw [hc]; exact hx) (by simp [State.LinkOk, hc, ho])
  | opening =>
    have hc : (sendAttempt i s).ctx i = { s.ctx i with phase := .linkWait, timer := 0 } := by
      rw [sendAttempt_opening i s hl]; exact State.ctx_modCtx_same s i _ hi
    have ho : (sendAttempt i s).link = .opening := by rw [sendAttempt_opening i s hl]; exact hl
    exact State.fits_waiting (hheld _ hc rfl rfl rfl) (by rw [hc]; rfl) (by rw [hc]; exact ⟨nofun, nofun⟩)
      (by rw [hc]; exact hx) (by simp [State.LinkOk, hc, ho])
  | up =>
    have hup : (sendAttempt i s).link = .up := (kept_sendAttempt i s).up.mpr hl
    have hdis : (sendAttempt i s).rxDiscard = s.rxDiscard := (lineKept_sendAttempt i s).rxDiscard
    cases hk : s.kind with
    | tcp =>
      have hc : (sendAttempt i s).ctx i =
          { s.ctx i with tid := s.nextTid, txn := .pending, phase := .awaitingResponse, timer := 0 } := by
        rw [sendAttempt_tcp i s hl hk hi]; exact State.ctx_modCtx_same s i _ hi
      refine State.fits_awaiting (hheld _ hc rfl rfl rfl) (by rw [hc]) (by rw [hc]) hup
        (fun h => by rw [hturn.kind, hk] at h; cases h) fun _ j hj hn hp he => ?_
      rw [hturn.others j hn] at hp he
      rw [hc] at he
      have hfree := State.nextTid_free (State.length_le_of_tableOk ht)
      rw [(State.tidPending_iff s _).mpr ⟨_, State.ctx_mem (hturn.length ▸ hj), hp, he⟩] at hfree
      cases hfree
    | rtu =>
      cases hd : s.rxDiscard with
      | true =>
        have hc : (sendAttempt i s).ctx i = { s.ctx i with phase := .resyncWait, timer := 0 } := by
          rw [sendAttempt_resync i s hl hk hd]; exact State.ctx_modCtx_same s i _ hi
        exact State.fits_waiting (hheld _ hc rfl rfl rfl) (by rw [hc]; rfl) (by rw [hc]; exact ⟨nofun, nofun⟩)
          (by rw [hc]; exact hx) (by simp [State.LinkOk, hc, hturn.kind, hk, hdis, hd])
      | false =>
        have hc : (sendAttempt i s).ctx i =
            { s.ctx i with tid := 0, txn := .pending, phase := .awaitingResponse, timer := 0 } := by
          rw [sendAttempt_rtu i s hl hk hd hi]; exact State.ctx_modCtx_same s i _ hi
        exact State.fits_awaiting (hheld _ hc rfl rfl rfl) (by rw [hc]) (by rw [hc]) hup (fun _ => hdis.trans hd)
          fun h => by rw [hturn.kind, hk] at h; cases h

theorem State.InvBut.sendAttempt (hs : s.InvBut (some i) n) (hi : i < s.ctxs.length) (hh : s.Held i)
    (hx : (s.ctx i).txn = .none) (hm : ∀ j < m, j = i ∨ j < n) : (sendAttempt i s).InvBut none m :=
  (hs.inTurn (inTurn_sendAttempt hi)).leave (State.sendAttempt_fits hs.table hi hh hx) hm

/-- `attempt_fail!` ends the turn of a context that holds an execute: it is free, backs off, or is sent again (R262). -/
theorem State.InvBut.attemptFail (err : Status) (hs : s.InvBut (some i) n) (hi : i < s.ctxs.length) (hh : s.Held i)
    (hx : (s.ctx i).txn = .none ∨ (s.ctx i).txn = .pending) (hm : ∀ j < m, j = i ∨ j < n) :
    (attemptFail i err s).InvBut none m := by
  by_cases hr : retryable err = true ∧ (s.ctx i).attempt < (s.ctx i).cfg.maxRetries
  · have hc : (s.modCtx i (retriedCtx err)).ctx i = retriedCtx err (s.ctx i) := State.ctx_modCtx_same s i _ hi
    have hs' := hs.inTurn (inTurn_modCtx i (retriedCtx err) s)
    have hh' : (s.modCtx i (retriedCtx err)).Held i :=
      hh.turn (turn_modCtx i _ s) (by rw [hc]; rfl) (by rw [hc]; rfl) (by rw [hc]; rfl)
    have hx' : ((s.modCtx i (retriedCtx err)).ctx i).txn = .none := by
      rw [hc]
      rcases hx with hx | hx <;> simp [retriedCtx, hx]
    by_cases hb : (s.ctx i).cfg.retryBackoffMs = 0
    · rw [attemptFail_resend i err s hi hr hb]
      exact hs'.sendAttempt (by simpa using hi) hh' hx' hm
    · rw [attemptFail_backoff i err s hi hr hb]
      exact hs'.leave (State.fits_waiting hh' (by rw [hc]; rfl) (by rw [hc]; exact ⟨nofun, nofun⟩) hx'
        (State.linkOk_of_free (.inr (by rw [hc]; rfl)))) hm
  · rw [attemptFail_end i err s hi hr]
    exact (hs.inTurn (inTurn_emit i _ s)).free (fun _ => ⟨rfl, rfl⟩) hi hm

/-- `complete!` for a good response ends a turn (R263). -/
theorem State.InvBut.completeGood (body : Body) (hs : s.InvBut (some i) n) (hi : i < s.ctxs.length)
    (hm : ∀ j < m, j = i ∨ j < n) : (completeGood i body s).InvBut none m := by
  rw [completeGood_eq i body s hi]
  exact (hs.inTurn (inTurn_emit i _ s)).free (fun _ => ⟨rfl, rfl⟩) hi hm

/-- `complete!` for an exception response ends a turn (R263). -/
theorem State.InvBut.completeExc (code : Byte) (hs : s.InvBut (some i) n) (hi : i < s.ctxs.length)
    (hm : ∀ j < m, j = i ∨ j < n) : (completeExc i code s).InvBut none m := by
  rw [completeExc_eq i code s hi]
  exact (hs.inTurn (inTurn_emit i _ s)).free (fun _ => ⟨rfl, rfl⟩) hi hm

/-! ### The same for a context at rest -/

/-- The failure of an active context at rest. -/
theorem State.InvBut.attemptFail_active (err : Status) (hs : s.InvBut none n) (hi : i < s.ctxs.length)
    (ha : isActive (s.ctx i).phase = true) (hm : ∀ j < m, j = i ∨ j < n) :
    (Machine.attemptFail i err s).InvBut none m :=
  (hs.enter i).attemptFail err hi (hs.held hi ha) (hs.own i hi (by simp)).txn.1 hm

/-- The sending of an active context at rest that awaits no response. -/
theorem State.InvBut.sendAttempt_active (hs : s.InvBut none n) (hi : i < s.ctxs.length)
    (ha : isActive (s.ctx i).phase = true) (hp : (s.ctx i).phase ≠ .awaitingResponse) (hm : ∀ j < m, j = i ∨ j < n) :
    (Machine.sendAttempt i s).InvBut none m :=
  (hs.enter i).sendAttempt hi (hs.held hi ha) ((hs.own i hi (by simp)).txn_eq_none hp) hm

/-! ### Loops over the contexts -/

/-- A loop whose turns each settle their context settles all of them (R20). -/
theorem State.InvBut.forCtx {f : Nat → State → State} (hf : ∀ i t, Turn i t (f i t)) (h0 : s.InvBut none 0)
    (hstep : ∀ i t, i < s.ctxs.length → t.ctxs.length = s.ctxs.length → t.ctx i = s.ctx i → t.InvBut none i →
      (f i t).InvBut none (i + 1)) :
    (s.forCtx f).Inv := by
  have key : ∀ k ≤ s.ctxs.length, (s.beforeTurn f k).InvBut none k := by
    intro k
    induction k with
    | zero => exact fun _ => h0
    | succ k ih =>
      intro hk
      have hb := State.beforeTurn_frame hf s k
      rw [State.beforeTurn_succ]
      exact hstep k _ hk hb.length (hb.later k (Nat.le_refl k)) (ih (by omega))
  rw [State.forCtx_eq_beforeTurn]
  exact (State.inv_iff (State.beforeTurn_frame hf s _).length.le).mpr (key _ (Nat.le_refl _))

end

end Sys2Proof.Machine
end

section
/-! SUPPORT. Every event of the engine keeps the invariant (45_engine): EXECUTE, CANCEL, TICK, LINK_UP, LINK_DOWN. -/

namespace Sys2Proof.Machine

theorem State.Inv.invBut {s : State} (hs : s.Inv) : s.InvBut none s.ctxs.length :=
  (State.inv_iff (Nat.le_refl _)).mp hs

theorem State.inv_of_turn {i : Nat} {s t : State} (h : Turn i s t) (ht : t.InvBut none s.ctxs.length) : t.Inv :=
  (State.inv_iff h.length.le).mpr ht

/-- A change of the session or of the receive side leaves every context as it was; the session's demands are to be shown
anew of the contexts below n. -/
theorem State.Inv.restart {n : Nat} {s t : State} (hs : s.Inv) (hk : t.kind = s.kind) (hc : t.ctxs = s.ctxs)
    (hr : t.ReceiveOk) (hl : ∀ j < s.ctxs.length, j < n → t.LinkOk (s.ctx j)) : t.InvBut none n := by
  have h := hs.invBut
  have hctx : ∀ j, t.ctx j = s.ctx j := fun j => by unfold State.ctx; rw [hc]
  exact ⟨(State.tableOk_congr hk (by rw [hc])).trans h.table, fun j hj _ => hctx j ▸ h.own j (hc ▸ hj) (by simp),
    fun j hj _ hn => hctx j ▸ hl j (hc ▸ hj) hn,
    fun j hj k hk' _ _ hne => by
      rw [hctx, hctx, hk]
      exact h.apart j (hc ▸ hj) k (hc ▸ hk') (by simp) (by simp) hne, hr⟩

/-- A change of the buffer or of `line_quiet` alone. -/
theorem State.Inv.receiver {s t : State} (hs : s.Inv) (hk : t.kind = s.kind) (hc : t.ctxs = s.ctxs)
    (hl : t.link = s.link) (hd : t.rxDiscard = s.rxDiscard) (hr : t.ReceiveOk) : t.Inv := by
  refine (State.inv_iff (n := s.ctxs.length) (by rw [hc])).mpr (hs.restart hk hc hr fun j hj _ => ?_)
  have h := hs.invBut.session j hj (by simp) hj
  unfold State.LinkOk at h ⊢
  rwa [hk, hl, hd]

theorem State.Inv.receive {s : State} (hs : s.Inv) : s.ReceiveOk := hs.2.2.2

/-- A resync runs only on an open session (R35). -/
theorem State.Inv.no_discard {s : State} (hs : s.Inv) (hl : s.link ≠ .up) : s.rxDiscard = false := by
  obtain ⟨-, -, -, -, -, -, hd⟩ := hs.receive
  exact (Bool.not_eq_true _).mp fun h => hl (hd h).1

/-- On an open session without a resync a context that awaits no response and is not drained is free or backs off. -/
theorem State.Inv.free_of_up {s : State} {i : Nat} (hs : s.Inv) (hi : i < s.ctxs.length) (hu : s.link = .up)
    (hd : s.rxDiscard = false) (hp : (s.ctx i).phase ≠ .awaitingResponse) (hp' : (s.ctx i).phase ≠ .draining) :
    (s.ctx i).phase = .idle ∨ (s.ctx i).phase = .backoff := by
  have hrest := (hs.invBut.own i hi (by simp)).resting
  obtain ⟨-, hopening, hresync, -, -⟩ := hs.invBut.session i hi (by simp) hi
  cases hph : (s.ctx i).phase with
  | idle => exact .inl rfl
  | backoff => exact .inr rfl
  | awaitingResponse => exact absurd hph hp
  | draining => exact absurd hph hp'
  | linkWait => rw [hopening hph] at hu; cases hu
  | resyncWait => rw [(hresync hph).2] at hd; cases hd
  | _ => rw [hph] at hrest; cases hrest

/-- Without an open session a context that does not wait for it is free or backs off. -/
theorem State.Inv.free_of_not_up {s : State} {i : Nat} (hs : s.Inv) (hi : i < s.ctxs.length) (hl : s.link ≠ .up)
    (hp : (s.ctx i).phase ≠ .linkWait) : (s.ctx i).phase = .idle ∨ (s.ctx i).phase = .backoff := by
  have hrest := (hs.invBut.own i hi (by simp)).resting
  obtain ⟨hup, -, hresync, -, -⟩ := hs.invBut.session i hi (by simp) hi
  cases hph : (s.ctx i).phase with
  | idle => exact .inl rfl
  | backoff => exact .inr rfl
  | awaitingResponse => exact absurd (hup (.inl hph)) hl
  | draining => exact absurd (hup (.inr hph)) hl
  | linkWait => exact absurd hph hp
  | resyncWait => exact absurd ((hs.no_discard hl).symm.trans (hresync hph).2) nofun
  | _ => rw [hph] at hrest; cases hrest

/-! ### EXECUTE and CANCEL -/

/-- An accepted execute holds a valid request under a handle that no active context holds (R250, R251). -/
theorem State.held_acceptExecute {i : Nat} {h : Handle} {r : Req} {cfg : ExecCfg} {s : State} (hi : i < s.ctxs.length)
    (hv : validate r cfg = true) (hn : s.findActive h = none) : (acceptExecute i h r cfg s).Held i := by
  have hc : (acceptExecute i h r cfg s).ctx i = acceptedCtx (s.ctx i) h r cfg .sending := State.ctx_modCtx_same s i _ hi
  have hturn : Turn i s (acceptExecute i h r cfg s) := turn_modCtx i _ s
  refine ⟨by rw [hc]; exact hv, fun j hj hne ha => ?_⟩
  rw [hturn.others j hne] at ha ⊢
  have hfree := (State.findActive_none s h).mp hn _ (State.ctx_mem (hturn.length ▸ hj))
  rw [hc]
  simpa [ha, acceptedCtx] using hfree

/-- EXECUTE is refused with a RESULT, or accepted into the lowest Idle context when its request is valid and no active
context holds its handle (R250). -/
theorem onExecute_accepts (h : Handle) (r : Req) (cfg : ExecCfg) (s : State) :
    (∃ st, onExecute h r cfg s = s.emit (plainResult h st 0)) ∨
      ∃ i, validate r cfg = true ∧ s.findActive h = none ∧ s.findIdle = some i ∧
        onExecute h r cfg s = sendAttempt i (acceptExecute i h r cfg s) := by
  unfold onExecute
  split
  · exact .inl ⟨_, rfl⟩
  · rename_i hv
    split
    · exact .inl ⟨_, rfl⟩
    · rename_i hn
      split
      · exact .inl ⟨_, rfl⟩
      · rename_i i hi
        exact .inr ⟨i, (Bool.not_eq_false _).mp hv, by simpa using hn, hi, rfl⟩

theorem onExecute_inv (h : Handle) (r : Req) (cfg : ExecCfg) {s : State} (hs : s.Inv) : (onExecute h r cfg s).Inv := by
  rcases onExecute_accepts h r cfg s with ⟨st, e⟩ | ⟨i, hv, hn, hi, e⟩
  · rw [e]; exact hs
  · rw [e]
    obtain ⟨hlt, -, -⟩ := (State.findIdle_some s i).mp hi
    have hacc : InTurn i s (acceptExecute i h r cfg s) := inTurn_modCtx i _ s
    have hc : (acceptExecute i h r cfg s).ctx i = acceptedCtx (s.ctx i) h r cfg .sending :=
      State.ctx_modCtx_same s i _ hlt
    exact State.inv_of_turn (hacc.toTurn.trans (turn_sendAttempt i _))
      (((hs.invBut.enter i).inTurn hacc).sendAttempt (hacc.length ▸ hlt) (State.held_acceptExecute hlt hv hn)
        (by rw [hc]; rfl) fun _ => .inr)

/-- A cancelled RTU exchange drains (R266, R267); every other cancelled execute frees its context. -/
theorem cancelCtx_inv (h : Handle) {i : Nat} {s : State} (hs : s.Inv) (hi : i < s.ctxs.length)
    (ha : isActive (s.ctx i).phase = true) : (cancelCtx h i s).Inv := by
  have hown := hs.invBut.own i hi (by simp)
  obtain ⟨hup, -, -, -, hquiet⟩ := hs.invBut.session i hi (by simp) hi
  have hvalid := hown.latched.1 ha
  unfold cancelCtx
  rw [cancelTxn_eq]
  extract_lets u
  have hu : InTurn i s u := (inTurn_emit i _ s).trans (inTurn_modCtx i _ _)
  have hlen : i < u.ctxs.length := hu.length ▸ hi
  have hc : u.ctx i = { s.ctx i with txn := if (s.ctx i).txn = .pending then .none else (s.ctx i).txn } :=
    State.ctx_modCtx_same (s.emit _) i _ hi
  have hbut := (hs.invBut.enter i).inTurn hu
  split
  · rename_i hd
    obtain ⟨hk, hp⟩ := hd
    rw [hu.kind] at hk
    have hp : (s.ctx i).phase = .awaitingResponse := by rwa [hc] at hp
    have hd := inTurn_modCtx i (fun c => { c with phase := .draining, handle := 0 }) u
    have hcd := State.ctx_modCtx_same u i (fun c => { c with phase := .draining, handle := 0 }) hlen
    have hcfg : cfgOk (s.ctx i).cfg = true := by simp only [validate, Bool.and_eq_true] at hvalid; exact hvalid.2
    refine State.inv_of_turn (hu.trans hd).toTurn ((hbut.inTurn hd).leave ?_ fun _ => .inr)
    refine State.fits_draining (by rw [hcd]) ?_ (by rw [hcd, hc]; exact hcfg) (hup (.inl hp)) hk (hquiet ⟨hk, .inl hp⟩)
    rw [hcd, hc]
    rcases hown.txn.1 with hx | hx <;> simp [hx]
  · exact State.inv_of_turn (hu.toTurn.trans (turn_release i u)) (hbut.release hlen fun _ => .inr)

theorem onCancel_inv (h : Handle) {s : State} (hs : s.Inv) : (onCancel h s).Inv := by
  unfold onCancel
  split
  · exact hs
  · rename_i i hi
    obtain ⟨hlt, hact, -⟩ := (State.findActive_some s h i).mp hi
    exact cancelCtx_inv h hs hlt (by simp at hact; exact hact.1)

/-! ### TICK -/

/-- The timer is no part of the invariant. -/
theorem State.InvBut.timer {n i : Nat} {s : State} (hs : s.InvBut none n) (hi : i < s.ctxs.length) (hn : i < n)
    (f : Word32 → Word32) : (s.modCtx i fun c => { c with timer := f c.timer }).InvBut none n := by
  have hc := State.ctx_modCtx_same s i (fun c => { c with timer := f c.timer }) hi
  have hown := hs.own i hi (by simp)
  have hturn := inTurn_modCtx i (fun c => { c with timer := f c.timer }) s
  refine ((hs.enter i).inTurn hturn).leave ⟨?_, ?_, fun j hj hne => ?_⟩ fun _ => .inr
  · rw [hc]; exact ⟨hown.resting, hown.txn, hown.latched⟩
  · rw [hc]; exact hs.session i hi (by simp) hn
  · rw [hc, hturn.others j hne]
    exact hs.apart i hi j (hturn.length ▸ hj) (by simp) (by simp) (Ne.symm hne)

section
variable {i n : Nat} {s : State}

/-- A response that is overdue fails the attempt (R271). -/
theorem State.InvBut.deadlineAwait (hs : s.InvBut none n) (hi : i < s.ctxs.length)
    (hp : (s.ctx i).phase = .awaitingResponse) : (deadlineAwait i s).InvBut none n := by
  have hheld := hs.held hi (by rw [hp]; rfl)
  unfold Machine.deadlineAwait
  rw [expireTxn_eq, State.setPhase, State.modCtx_modCtx]
  have hturn := inTurn_modCtx i (fun c => { c with phase := .timedOut, txn := .none }) s
  have hc := State.ctx_modCtx_same s i (fun c => { c with phase := .timedOut, txn := .none }) hi
  exact ((hs.enter i).inTurn hturn).attemptFail .timeout (hturn.length ▸ hi)
    (hheld.turn hturn.toTurn (by rw [hc]) (by rw [hc]) (by rw [hc])) (.inl (by rw [hc])) fun _ => .inr

/-- A resync that is overdue ends, and the attempt is sent (R273). -/
theorem State.InvBut.deadlineResync (hs : s.InvBut none n) (hi : i < s.ctxs.length) (hn : i < n)
    (hp : (s.ctx i).phase = .resyncWait) : (deadlineResync i s).InvBut none n := by
  obtain ⟨-, -, hresync, -, -⟩ := hs.session i hi (by simp) hn
  obtain ⟨hwf, hcap, -⟩ := hs.receive
  have hrx : (s.endDiscard.bufClear).ReceiveOk := State.receiveOk_of_cleared hwf hcap rfl (fun _ => rfl) nofun
  obtain ⟨hvalid, hunshared⟩ := hs.held hi (by rw [hp]; rfl)
  have hx := (hs.own i hi (by simp)).txn_eq_none (by rw [hp]; exact nofun)
  exact (State.invBut_sole (s := s.endDiscard.bufClear) n hs.table (hresync hp).1 hi hrx).sendAttempt hi
    ⟨hvalid, hunshared⟩ hx fun _ => .inr

theorem State.InvBut.tickDeadline (hs : s.InvBut none n) (hi : i < s.ctxs.length) (hn : i < n) :
    (tickDeadline i s).InvBut none n := by
  have hif : ∀ (p : Prop) [Decidable p] (t : State), t.InvBut none n → (if p then t else s).InvBut none n := by
    intro p _ t ht
    split
    · exact ht
    · exact hs
  unfold Machine.tickDeadline
  split
  · rename_i hp
    exact hif _ _ (hs.deadlineAwait hi hp)
  · rename_i hp
    exact hif _ _ (hs.sendAttempt_active hi (by rw [hp]; rfl) (by rw [hp]; exact nofun) fun _ => .inr)
  · rename_i hp
    exact hif _ _ (hs.deadlineResync hi hn hp)
  · rename_i hp
    exact hif _ _ (hs.attemptFail_active _ hi (by rw [hp]; rfl) fun _ => .inr)
  · exact hif _ _ ((hs.enter i).release hi fun _ => .inr)
  all_goals exact hs

theorem State.InvBut.tickCtx (hs : s.InvBut none n) (hi : i < s.ctxs.length) (hn : i < n) :
    (tickCtx i s).InvBut none n := by
  unfold Machine.tickCtx
  split
  · exact (hs.timer hi hn timerNext).tickDeadline (by simpa using hi) hn
  · exact hs

end

theorem onTick_inv {s : State} (hs : s.Inv) : (onTick s).Inv := by
  have h := State.forCtx_induct (fun t => t.ctxs.length = s.ctxs.length ∧ t.InvBut none s.ctxs.length) tickCtx s
    ⟨rfl, hs.invBut⟩ fun i t hi ⟨hlen, ht⟩ =>
      ⟨(turn_tickCtx i t).length.trans hlen, ht.tickCtx (hlen.symm ▸ hi) hi⟩
  exact (State.inv_iff h.1.le).mpr h.2

/-! ### LINK_UP and LINK_DOWN -/

theorem onLinkUp_inv {s : State} (hs : s.Inv) : (onLinkUp s).Inv := by
  unfold onLinkUp
  split
  · exact hs
  · rename_i hl
    have hrx : (s.setLink .up).ReceiveOk :=
      hs.receive.congr rfl rfl rfl rfl fun h => by rw [State.setLink_rxDiscard, hs.no_discard hl] at h; cases h
    refine State.InvBut.forCtx turn_linkUpCtx (hs.restart rfl rfl hrx fun j _ h => absurd h (Nat.not_lt_zero j)) ?_
    intro i t hi hlen hc ht
    have hc : t.ctx i = s.ctx i := hc
    unfold linkUpCtx
    split
    · rename_i hp
      exact ht.sendAttempt_active (hlen.symm ▸ hi) (by rw [hp]; rfl) (by rw [hp]; exact nofun) fun j => by omega
    · rename_i hp
      rw [hc] at hp
      exact ht.next fun _ => State.linkOk_of_free (hc ▸ hs.free_of_not_up hi hl hp)

theorem onLinkDown_inv {s : State} (hs : s.Inv) : (onLinkDown s).Inv := by
  unfold onLinkDown
  split
  · exact hs
  · obtain ⟨hwf, hcap, -⟩ := hs.receive
    have hrx : s.linkLost.ReceiveOk := State.receiveOk_of_cleared hwf hcap rfl (fun _ => rfl) nofun
    refine State.InvBut.forCtx turn_linkDownCtx (s := s.linkLost)
      (hs.restart rfl rfl hrx fun j _ h => absurd h (Nat.not_lt_zero j)) ?_
    intro i t hi hlen _ ht
    have hi : i < t.ctxs.length := hlen.symm ▸ hi
    have hfree : (t.ctx i).phase = .idle ∨ (t.ctx i).phase = .backoff → t.InvBut none (i + 1) :=
      fun h => ht.next fun _ => State.linkOk_of_free h
    have hrest := (ht.own i hi (by simp)).resting
    have hm : ∀ j < i + 1, j = i ∨ j < i := fun j => by omega
    unfold linkDownCtx
    split
    · rename_i hp
      exact ht.attemptFail_active _ hi (by rw [hp]; rfl) hm
    · rename_i hp
      exact ht.attemptFail_active _ hi (by rw [hp]; rfl) hm
    · rename_i hp
      exact ht.sendAttempt_active hi (by rw [hp]; rfl) (by rw [hp]; exact nofun) hm
    · exact (ht.enter i).release hi hm
    all_goals
      rename_i hp
      exact hfree (by simp [hp, isResting] at hrest ⊢)

end Sys2Proof.Machine
end

section
/-! SUPPORT. The receive side keeps the invariant (43_reassembly): an append, the MBAP framer, the RTU framer, the
silence and the resynchronisation. -/

namespace Sys2Proof.Machine

/-! ### An append -/

theorem Memory.index_of_mem_write {m : Memory} {a : Nat} {b : Byte} {p : Host.Cell} (h : p ∈ m.write a b) :
    p ∈ m ∨ p.1 = a := by
  induction m with
  | nil =>
    unfold Memory.write at h
    split at h
    · exact .inl h
    · exact .inr (by rw [List.mem_singleton.mp h])
  | cons q m ih =>
    obtain ⟨k, c⟩ := q
    unfold Memory.write at h
    split at h
    · split at h
      · exact .inl h
      · rcases List.mem_cons.mp h with rfl | h
        · exact .inr rfl
        · exact .inl h
    · split at h
      · split at h
        · exact .inl (List.mem_cons_of_mem _ h)
        · rcases List.mem_cons.mp h with rfl | h
          · exact .inr rfl
          · exact .inl (List.mem_cons_of_mem _ h)
      · rcases List.mem_cons.mp h with rfl | h
        · exact .inl List.mem_cons_self
        · exact (ih h).imp_left (List.mem_cons_of_mem _)

theorem byteAt_append {l : List Byte} {b : Byte} {k : Nat} (h : k < l.length) : byteAt (l ++ [b]) k = byteAt l k := by
  simp [byteAt, List.getD_eq_getElem?_getD, List.getElem?_append_left h]

theorem rdBE16_append {l : List Byte} {b : Byte} {k : Nat} (h : k + 1 < l.length) :
    rdBE16 (l ++ [b]) k = rdBE16 l k := by
  simp only [rdBE16, byteAt_append h, byteAt_append (Nat.lt_of_succ_lt h)]

/-- The header is in the first six bytes (R207). -/
theorem headerOk_append {l : List Byte} {b : Byte} (h : 6 ≤ l.length) : headerOk (l ++ [b]) = headerOk l := by
  simp only [headerOk, rdBE16_append (show 2 + 1 < l.length by omega), rdBE16_append (show 4 + 1 < l.length by omega)]

theorem headerOk_length {l : List Byte} (h : headerOk l = true) : 2 ≤ (rdBE16 l 4).toNat := by
  simp only [headerOk, Bool.and_eq_true, decide_eq_true_eq] at h
  exact h.1.2

/-- The length is inferred from the first three bytes (R212). -/
theorem rtuExpectedLen_append {l : List Byte} {b : Byte} (h : 3 ≤ l.length) :
    rtuExpectedLen (l ++ [b]) = rtuExpectedLen l := by
  have hlen : (l ++ [b]).length = l.length + 1 := by simp
  have h2 : ¬ l.length + 1 < 2 ∧ ¬ l.length < 2 := by omega
  have h3 : ¬ l.length + 1 < 3 ∧ ¬ l.length < 3 := by omega
  simp only [rtuExpectedLen, hlen, h2, h3, byteAt_append (show 1 < l.length by omega),
    byteAt_append (show 2 < l.length by omega)]

/-- No inferred length is below 5 (R212). -/
theorem five_le_of_rtuExpectedLen {l : List Byte} {n : Nat} (e : rtuExpectedLen l = .bytes n) : 5 ≤ n := by
  unfold rtuExpectedLen at e
  split_ifs at e <;> cases e <;> omega

/-- The length that one more byte makes known is not behind the bytes received, as the length known before was ahead of
them (R211, R212). -/
theorem length_lt_of_rtuExpectedLen_append {l : List Byte} {b : Byte} {n : Nat}
    (h : (rtuExpectedLen l).exceeds l.length = true) (e : rtuExpectedLen (l ++ [b]) = .bytes n) : l.length < n := by
  by_cases h3 : 3 ≤ l.length
  · rw [rtuExpectedLen_append h3] at e
    rw [e] at h
    simpa [ExpectedLen.exceeds] using h
  · have := five_le_of_rtuExpectedLen e
    omega

section
variable {b : Byte} {s : State}

theorem State.Inv.bufAppend_cap (hs : s.Inv) (hcap : s.rxlen < Config.rxbufCap) :
    ∀ p ∈ (s.bufAppend b).rxbuf, p.1 < Config.rxbufCap := by
  obtain ⟨-, hold, -⟩ := hs.receive
  intro p hp
  rcases Memory.index_of_mem_write hp with h | h
  · exact hold p h
  · omega

/-- A cleared buffer keeps the invariant whatever was appended to it. -/
theorem State.Inv.clear_append (hs : s.Inv) (hcap : s.rxlen < Config.rxbufCap) : (s.bufAppend b).bufClear.Inv := by
  obtain ⟨hwf, -, -, -, -, hdt, hd⟩ := hs.receive
  exact hs.receiver rfl rfl rfl rfl
    (State.receiveOk_of_cleared (State.bufAppend_wf b s hwf) (hs.bufAppend_cap hcap) rfl hdt hd)

theorem State.Inv.clear (hs : s.Inv) : s.bufClear.Inv := by
  obtain ⟨hwf, hcap, -, -, -, hdt, hd⟩ := hs.receive
  exact hs.receiver rfl rfl rfl rfl (State.receiveOk_of_cleared hwf hcap rfl hdt hd)

/-- An append that completes no frame keeps the invariant (R34, R47 item 8). -/
theorem State.Inv.append (hs : s.Inv) (hcap : s.rxlen < Config.rxbufCap)
    (htcp : s.kind = .tcp → ¬ ((s.bufAppend b).rxlen = 6 ∧ headerOk (s.bufAppend b).bufBytes = false) ∧
      ¬ ((s.bufAppend b).rxlen ≥ 6 ∧ (s.bufAppend b).rxlen = 6 + (rdBE16 (s.bufAppend b).bufBytes 4).toNat))
    (hrtu : s.kind = .rtu → rtuExpectedLen (s.bufAppend b).bufBytes ≠ .bytes (s.bufAppend b).rxlen) :
    (s.bufAppend b).Inv := by
  obtain ⟨hwf, -, -, holdTcp, holdRtu, hdt, hd⟩ := hs.receive
  rw [State.bufAppend_bufBytes b s hwf] at htcp hrtu
  simp only [State.bufAppend_rxlen] at htcp hrtu
  have hlen := State.bufBytes_length s
  refine hs.receiver rfl rfl rfl rfl
    ⟨State.bufAppend_wf b s hwf, hs.bufAppend_cap hcap, hcap, ?_, ?_, hdt, hd⟩
  · rintro ⟨hk, h6⟩
    have hk : s.kind = .tcp := hk
    rw [State.bufAppend_rxlen] at h6 ⊢
    rw [State.bufAppend_bufBytes b s hwf]
    obtain ⟨hhead, hdone⟩ := htcp hk
    by_cases h : s.rxlen + 1 = 6
    · have hok : headerOk (s.bufBytes ++ [b]) = true := by simpa [h] using hhead
      exact ⟨hok, by have := headerOk_length hok; omega⟩
    · obtain ⟨hok, hlt⟩ := holdTcp ⟨hk, by omega⟩
      rw [rdBE16_append (by omega)] at hdone ⊢
      exact ⟨by rw [headerOk_append (by omega)]; exact hok, by omega⟩
  · intro hk
    have hk : s.kind = .rtu := hk
    rw [State.bufAppend_bufBytes b s hwf, State.bufAppend_rxlen]
    cases e : rtuExpectedLen (s.bufBytes ++ [b]) with
    | wait => rfl
    | silence => rfl
    | bytes n =>
      have hle := length_lt_of_rtuExpectedLen_append (hlen.symm ▸ holdRtu hk) e
      have hne : n ≠ s.rxlen + 1 := fun h => hrtu hk (h ▸ e)
      simp only [ExpectedLen.exceeds, decide_eq_true_eq]
      omega

end

/-! ### TCP -/

/-- An abort closes the session and fails every awaiting context (R220). -/
theorem tcpAbort_inv (bad : Tid) {s : State} (hs : s.Inv) (hk : s.kind = .tcp) (hu : s.link = .up) :
    (tcpAbort bad s).Inv := by
  obtain ⟨hwf, hcap, -, -, -, hdt, hd⟩ := hs.receive
  have hrx : s.closed.bufClear.ReceiveOk :=
    State.receiveOk_of_cleared hwf hcap rfl hdt fun h => absurd ((hdt hk).symm.trans h) nofun
  refine State.InvBut.forCtx (turn_tcpAbortCtx bad) (s := s.closed.bufClear)
    (hs.restart rfl rfl hrx fun j _ h => absurd h (Nat.not_lt_zero j)) ?_
  intro i t hi hlen hc ht
  have hc : t.ctx i = s.ctx i := hc
  have hit : i < t.ctxs.length := hlen.symm ▸ hi
  have hm : ∀ j < i + 1, j = i ∨ j < i := fun j => by omega
  unfold tcpAbortCtx
  split
  · rename_i hp
    split <;> exact ht.attemptFail_active _ hit (by rw [hp]; rfl) hm
  · rename_i hp
    rw [hc] at hp
    have hdrain : (s.ctx i).phase ≠ .draining := fun h => by
      obtain ⟨-, -, -, hr, -⟩ := hs.invBut.session i hi (by simp) hi
      exact absurd (hk.symm.trans (hr h)) nofun
    exact ht.next fun _ => State.linkOk_of_free (hc ▸ hs.free_of_up hi hu (hdt hk) hp hdrain)

theorem tcpDeliver_inv (f : List Byte) {s : State} (hs : s.Inv) (hk : s.kind = .tcp) (hu : s.link = .up) :
    (tcpDeliver f s).Inv := by
  unfold tcpDeliver
  split
  · exact hs
  · rename_i i hi
    obtain ⟨hlt, -, -⟩ := (State.lookup_some s _ i).mp hi
    split
    · exact tcpAbort_inv _ hs hk hu
    · exact State.inv_of_turn (turn_completeGood i _ s) ((hs.invBut.enter i).completeGood _ hlt fun _ => .inr)
    · exact State.inv_of_turn (turn_completeExc i _ s) ((hs.invBut.enter i).completeExc _ hlt fun _ => .inr)

theorem tcpRxByte_inv (b : Byte) {s : State} (hs : s.Inv) (hk : s.kind = .tcp) (hu : s.link = .up)
    (hcap : s.rxlen < Config.rxbufCap) : (tcpRxByte b s).Inv := by
  have hclear : (s.bufAppend b).bufClear.Inv := hs.clear_append hcap
  unfold tcpRxByte tcpCheck
  split
  · exact tcpAbort_inv (s := (s.bufAppend b).bufClear) _ hclear hk hu
  · rename_i hhead
    split
    · exact tcpDeliver_inv _ hclear hk hu
    · rename_i hdone
      exact hs.append hcap (fun _ => ⟨hhead, hdone⟩) fun h => absurd (hk.symm.trans h) nofun

/-! ### RTU -/

/-- An open RTU line on which no resync runs, in a state that a cleared buffer puts into the invariant. -/
structure State.Hears (s : State) : Prop where
  inv : s.bufClear.Inv
  kind : s.kind = .rtu
  up : s.link = .up
  noDiscard : s.rxDiscard = false

section
variable {s : State}

theorem State.Hears.sole (h : s.Hears) : 0 < s.ctxs.length :=
  Nat.lt_of_lt_of_eq Nat.one_pos (State.length_of_rtu h.inv.invBut.table h.kind).symm

theorem State.Hears.free (h : s.Hears) (hp : (s.ctx 0).phase ≠ .awaitingResponse) (hp' : (s.ctx 0).phase ≠ .draining) :
    (s.ctx 0).phase = .idle ∨ (s.ctx 0).phase = .backoff :=
  h.inv.free_of_up h.sole h.up h.noDiscard hp hp'

/-- A resync that starts leaves the invariant of the one context to be shown (R213, R221). -/
theorem State.Hears.startDiscard (h : s.Hears) : (s.bufClear.startDiscard).InvBut (some 0) s.ctxs.length := by
  obtain ⟨hwf, hcap, -⟩ := h.inv.receive
  refine State.invBut_sole _ h.inv.invBut.table h.kind h.sole (State.receiveOk_of_cleared hwf hcap rfl ?_ ?_)
  · exact fun hk => absurd (h.kind.symm.trans hk) nofun
  · exact fun hd => ⟨h.up, by simpa using hd⟩

/-- The failure of the awaited response on a line that may have to resynchronise (R213, R221). -/
theorem State.Hears.attemptFail (err : Status) (h : s.Hears) (hp : (s.ctx 0).phase = .awaitingResponse) :
    (Machine.attemptFail 0 err s.bufClear.startDiscard).Inv := by
  obtain ⟨hvalid, hunshared⟩ := h.inv.invBut.held (i := 0) h.sole (hp ▸ rfl : isActive (s.ctx 0).phase = true)
  have hx := (h.inv.invBut.own 0 h.sole (by simp)).txn.1
  exact State.inv_of_turn (turn_attemptFail 0 err _)
    (h.startDiscard.attemptFail err h.sole ⟨hvalid, hunshared⟩ hx fun _ => .inr)

/-- `rtu_err!` (R221). -/
theorem State.Hears.rtuErr (err : Status) (h : s.Hears) : (rtuErr err s).Inv := by
  have hfree : (s.ctx 0).phase = .idle ∨ (s.ctx 0).phase = .backoff → s.bufClear.startDiscard.Inv := fun hp =>
    State.inv_of_turn (Turn.refl 0 _) (h.inv.restart rfl rfl h.startDiscard.receive fun j hj _ => by
      obtain rfl : j = 0 := by
        have := State.length_of_rtu h.inv.invBut.table h.kind
        omega
      exact State.linkOk_of_free hp)
  unfold Machine.rtuErr
  extract_lets u
  have hctx : u.ctx 0 = s.ctx 0 := rfl
  split
  · rename_i hp
    exact h.attemptFail err hp
  · exact State.inv_of_turn (turn_release 0 _) (h.startDiscard.release h.sole fun _ => .inr)
  all_goals
    rename_i hp
    rw [hctx] at hp
    exact hfree (h.free (by rw [hp]; exact nofun) (by rw [hp]; exact nofun))

/-- A good frame for the awaiting context (R213). -/
theorem State.Hears.rtuAnswer (f : List Byte) (h : s.Hears) (hp : (s.ctx 0).phase = .awaitingResponse) :
    (rtuAnswer f s.bufClear).Inv := by
  unfold Machine.rtuAnswer
  split
  · exact h.attemptFail _ hp
  · exact State.inv_of_turn (turn_completeGood 0 _ _)
      ((h.inv.invBut.enter 0).completeGood _ h.sole fun _ => .inr)
  · exact State.inv_of_turn (turn_completeExc 0 _ _) ((h.inv.invBut.enter 0).completeExc _ h.sole fun _ => .inr)

/-- `rtu_frame!` (R213). -/
theorem State.Hears.rtuFrame (f : List Byte) (h : s.Hears) : (rtuFrame f s).Inv := by
  have hstray : (rtuStray s.bufClear).Inv := h.inv
  unfold Machine.rtuFrame
  extract_lets u
  split
  · rename_i hp
    exact h.rtuAnswer f hp
  · exact State.inv_of_turn (turn_release 0 _) ((hstray.invBut.enter 0).release h.sole fun _ => .inr)
  all_goals exact hstray

theorem State.Hears.rtuChecked (f : List Byte) (h : s.Hears) : (rtuChecked f s).Inv := by
  unfold Machine.rtuChecked
  split
  · exact h.rtuFrame f
  · exact h.rtuErr _

/-- `silence_end!` (R215). -/
theorem State.Hears.silenceEnd (h : s.Hears) : (silenceEnd s).Inv := by
  unfold Machine.silenceEnd
  split
  · split
    · exact h.rtuErr _
    · exact h.rtuChecked _
  all_goals exact h.rtuErr _

/-- `rtu_check!` after an append (R211). -/
theorem rtuCheck_inv (b : Byte) (hs : s.Inv) (hk : s.kind = .rtu) (hu : s.link = .up) (hd : s.rxDiscard = false)
    (hcap : s.rxlen < Config.rxbufCap) : (rtuCheck (s.bufAppend b)).Inv := by
  have hears : (s.bufAppend b).Hears := ⟨hs.clear_append hcap, hk, hu, hd⟩
  have hmore : rtuExpectedLen (s.bufAppend b).bufBytes ≠ .bytes (s.bufAppend b).rxlen → (s.bufAppend b).Inv :=
    fun h => hs.append hcap (fun ht => absurd (hk.symm.trans ht) nofun) fun _ => h
  unfold rtuCheck
  split
  · rename_i n e
    split
    · exact hears.rtuChecked _
    · rename_i hn
      exact hmore fun h => hn (ExpectedLen.bytes.inj (e.symm.trans h)).symm
  · rename_i e
    exact hmore (by rw [e]; exact nofun)
  · rename_i e
    exact hmore (by rw [e]; exact nofun)

theorem rtuRxByte_inv (b : Byte) (hs : s.Inv) (hk : s.kind = .rtu) (hu : s.link = .up) : (rtuRxByte b s).Inv := by
  have hbusy : s.lineBusy.Inv :=
    hs.receiver rfl rfl rfl rfl (hs.receive.congr rfl rfl rfl rfl fun _ => ⟨hu, rfl⟩)
  unfold rtuRxByte
  extract_lets u
  split
  · exact hbusy
  · rename_i hd
    have hd : u.rxDiscard = false := (Bool.not_eq_true _).mp hd
    split
    · exact State.Hears.rtuErr _ ⟨hbusy.clear, hk, hu, hd⟩
    · rename_i hcap
      obtain ⟨-, -, hle, -⟩ := hbusy.receive
      exact rtuCheck_inv b hbusy hk hu hd (Nat.lt_of_le_of_ne hle hcap)

/-- RX_IDLE on an open RTU line ends a resync, or a frame (R214). -/
theorem rtuIdle_inv (hs : s.Inv) (hk : s.kind = .rtu) (hu : s.link = .up) : (rtuIdle s).Inv := by
  have hlen := State.length_of_rtu hs.invBut.table hk
  have h0 : 0 < s.ctxs.length := by omega
  obtain ⟨hwf, hcap, -⟩ := hs.receive
  unfold rtuIdle
  split
  · extract_lets u
    have hrx : u.ReceiveOk := State.receiveOk_of_cleared hwf hcap rfl (fun _ => rfl) nofun
    obtain ⟨hup, hopening, -, hdrain, -⟩ := hs.invBut.session 0 h0 (by simp) h0
    split
    · rename_i hp
      have hp : (s.ctx 0).phase = .resyncWait := hp
      obtain ⟨hvalid, hunshared⟩ := hs.invBut.held h0 (by rw [hp]; rfl)
      have hx := (hs.invBut.own 0 h0 (by simp)).txn_eq_none (by rw [hp]; exact nofun)
      have hu := State.invBut_sole (s := u) s.ctxs.length hs.invBut.table hk h0 hrx
      exact State.inv_of_turn (turn_sendAttempt 0 u) (hu.sendAttempt h0 ⟨hvalid, hunshared⟩ hx fun _ => .inr)
    · rename_i hp
      have hp : (s.ctx 0).phase ≠ .resyncWait := hp
      refine State.inv_of_turn (Turn.refl 0 u) (hs.restart rfl rfl hrx fun j hj _ => ?_)
      obtain rfl : j = 0 := by omega
      exact ⟨hup, hopening, fun h => absurd h hp, hdrain, fun _ => rfl⟩
  · rename_i hd
    have hd : s.rxDiscard = false := (Bool.not_eq_true _).mp hd
    have hsilent : s.lineSilent.Inv :=
      hs.receiver rfl rfl rfl rfl (hs.receive.congr rfl rfl rfl rfl fun h => absurd (hd.symm.trans h) nofun)
    extract_lets u
    split
    · exact State.Hears.silenceEnd ⟨hsilent.clear, hk, hu, hd⟩
    · exact hsilent

end

/-! ### The events -/

theorem onRxByte_inv (b : Byte) {s : State} (hs : s.Inv) (hr : s.appendOutOfRange = false) : (onRxByte b s).Inv := by
  unfold onRxByte
  split
  · rename_i hu
    split
    · rename_i hk
      exact tcpRxByte_inv b hs hk hu (by simpa [State.appendOutOfRange, hk, hu] using hr)
    · rename_i hk
      exact rtuRxByte_inv b hs hk hu
  · exact hs

theorem onRxIdle_inv {s : State} (hs : s.Inv) : (onRxIdle s).Inv := by
  rcases onRxIdle_cases s with h | ⟨hu, hk, h⟩
  · rw [h]; exact hs
  · rw [h]; exact rtuIdle_inv hs hk hu

/-- Every instruction that completes keeps the invariant (R47). -/
theorem exec_inv {i : Instr} {s t : State} (hs : s.Inv) (e : exec i s = .next t) : t.Inv := by
  have hb : s.begin.Inv := hs
  cases exec_completes e with
  | codec i v ht => subst ht; exact hs
  | crcInit ht => subst ht; exact hs
  | crcUpdate b ht => subst ht; exact hs
  | execute h r c _ ht => subst ht; exact onExecute_inv h r c hb
  | cancel h _ ht => subst ht; exact onCancel_inv h hb
  | rxByte b _ hr ht => subst ht; exact onRxByte_inv b hb hr
  | rxIdle _ ht => subst ht; exact onRxIdle_inv hb
  | tick _ ht => subst ht; exact onTick_inv hb
  | linkUp _ ht => subst ht; exact onLinkUp_inv hb
  | linkDown _ ht => subst ht; exact onLinkDown_inv hb

/-- Settles O48: a step holds the state or runs an instruction, and every instruction keeps the invariant. -/
theorem invariantsKept : Obligations.InvariantsKept := by
  intro s t hs e
  rcases step_next e with ⟨-, rfl⟩ | ⟨w, rest, i, -, -, hx⟩
  · exact hs
  · exact exec_inv (s := { s with inbox := rest }) hs hx

end Sys2Proof.Machine
end

section
/-! SUPPORT. The latched requests (10_state R41): what each procedure and event leaves of them. -/

namespace Sys2Proof.Machine

/-- The requests and configurations that the contexts hold, in the order of the table. -/
def State.latched (s : State) : List (Req × ExecCfg) := s.ctxs.map fun c => (c.req, c.cfg)

theorem State.latched_ctx {s t : State} (h : t.latched = s.latched) (j : Nat) :
    (t.ctx j).req = (s.ctx j).req ∧ (t.ctx j).cfg = (s.ctx j).cfg := by
  have key : ∀ u : State, ((u.ctx j).req, (u.ctx j).cfg) = u.latched.getD j (Ctx.reset.req, Ctx.reset.cfg) := by
    intro u
    simp only [State.latched, State.ctx, List.getD_eq_getElem?_getD, List.getElem?_map]
    cases u.ctxs[j]? <;> rfl
  exact Prod.mk.inj ((key t).trans (h ▸ (key s).symm))

section
variable (i : Nat) (s : State)

/-! ### The state's operations -/

theorem State.latched_modCtx {f : Ctx → Ctx} (hf : ∀ c, (f c).req = c.req ∧ (f c).cfg = c.cfg) :
    (s.modCtx i f).latched = s.latched := by
  apply List.ext_getElem?
  intro k
  simp only [State.latched, State.modCtx_ctxs, List.getElem?_map, List.getElem?_modify]
  cases s.ctxs[k]? with
  | none => rfl
  | some c => by_cases hk : i = k <;> simp [hk, hf c]

@[simp] theorem State.latched_emit (o : Output) : (s.emit o).latched = s.latched := rfl

@[simp] theorem State.latched_setLink (l : Link) : (s.setLink l).latched = s.latched := rfl

@[simp] theorem State.latched_bufClear : s.bufClear.latched = s.latched := rfl

@[simp] theorem State.latched_bufAppend (b : Byte) : (s.bufAppend b).latched = s.latched := rfl

@[simp] theorem State.latched_startDiscard : s.startDiscard.latched = s.latched := rfl

@[simp] theorem State.latched_endDiscard : s.endDiscard.latched = s.latched := rfl

@[simp] theorem State.latched_lineBusy : s.lineBusy.latched = s.latched := rfl

@[simp] theorem State.latched_lineSilent : s.lineSilent.latched = s.latched := rfl

@[simp] theorem State.latched_setPhase (p : Phase) : (s.setPhase i p).latched = s.latched :=
  s.latched_modCtx i fun _ => ⟨rfl, rfl⟩

@[simp] theorem State.latched_enterPhase (p : Phase) : (s.enterPhase i p).latched = s.latched :=
  s.latched_modCtx i fun _ => ⟨rfl, rfl⟩

@[simp] theorem State.latched_setTxn (x : Txn) : (s.setTxn i x).latched = s.latched :=
  s.latched_modCtx i fun _ => ⟨rfl, rfl⟩

theorem State.latched_forCtx {f : Nat → State → State} (hf : ∀ i t, (f i t).latched = t.latched) :
    (s.forCtx f).latched = s.latched :=
  State.forCtx_induct (fun t => t.latched = s.latched) f s rfl fun i t _ ht => (hf i t).trans ht

/-! ### The engine's procedures -/

@[simp] theorem latched_registerTxn : (registerTxn i s).latched = s.latched := by
  unfold registerTxn
  split <;> exact State.latched_modCtx i _ fun _ => ⟨rfl, rfl⟩

@[simp] theorem latched_sendFrame : (sendFrame i s).latched = s.latched := by
  unfold sendFrame
  split <;> simp

@[simp] theorem latched_sendAttempt : (sendAttempt i s).latched = s.latched := by
  cases hl : s.link with
  | down => simp [sendAttempt_of_down i s hl]
  | opening => simp [sendAttempt_of_opening i s hl]
  | up => simp [sendAttempt_of_up i s hl, transmit, apply_ite State.latched]

@[simp] theorem latched_release : (release i s).latched = s.latched := s.latched_modCtx i fun _ => ⟨rfl, rfl⟩

@[simp] theorem latched_attemptFail (err : Status) : (attemptFail i err s).latched = s.latched := by
  unfold attemptFail
  extract_lets s₁ s₂ s₃ s₄
  have h₂ : s₂.latched = s.latched := by simp [s₂, s₁, resolveFailed, apply_ite State.latched]
  have h₃ : s₃.latched = s.latched := by rw [← h₂]; exact s₂.latched_modCtx i fun _ => ⟨rfl, rfl⟩
  have h₄ : s₄.latched = s.latched := by rw [← h₃]; exact s₃.latched_modCtx i fun _ => ⟨rfl, rfl⟩
  split
  · split <;> simp [h₄]
  · simp [h₃]

@[simp] theorem latched_completeGood (body : Body) : (completeGood i body s).latched = s.latched := by
  simp [completeGood, resolveCompleted]

@[simp] theorem latched_completeExc (code : Byte) : (completeExc i code s).latched = s.latched := by
  simp [completeExc, resolveCompleted]

@[simp] theorem latched_cancelTxn : (cancelTxn i s).latched = s.latched := by
  simp [cancelTxn, apply_ite State.latched]

/-! ### The engine's events -/

theorem latched_onCancel (h : Handle) : (onCancel h s).latched = s.latched := by
  unfold onCancel
  split
  · rfl
  · simp [cancelCtx, State.latched_modCtx, apply_ite State.latched]

theorem latched_tickCtx : (tickCtx i s).latched = s.latched := by
  have hd : ∀ u : State, (tickDeadline i u).latched = u.latched := by
    intro u
    unfold tickDeadline
    split <;> simp [deadlineAwait, expireTxn, deadlineResync, apply_ite State.latched]
  simp [tickCtx, hd, State.latched_modCtx, apply_ite State.latched]

theorem latched_onTick : (onTick s).latched = s.latched := s.latched_forCtx latched_tickCtx

theorem latched_onLinkUp : (onLinkUp s).latched = s.latched := by
  have hturn : ∀ i t, (linkUpCtx i t).latched = t.latched := fun i t => by simp [linkUpCtx, apply_ite State.latched]
  simp [onLinkUp, State.latched_forCtx _ hturn, apply_ite State.latched]

theorem latched_linkDownCtx : (linkDownCtx i s).latched = s.latched := by
  unfold linkDownCtx
  split <;> simp

theorem latched_onLinkDown : (onLinkDown s).latched = s.latched := by
  simp [onLinkDown, State.latched_forCtx _ latched_linkDownCtx, apply_ite State.latched]

/-! ### The receive side -/

@[simp] theorem latched_tcpAbort (bad : Tid) : (tcpAbort bad s).latched = s.latched := by
  have hturn : ∀ i t, (tcpAbortCtx bad i t).latched = t.latched :=
    fun i t => by simp [tcpAbortCtx, apply_ite State.latched]
  simp [tcpAbort, State.latched_forCtx _ hturn]

@[simp] theorem latched_tcpDeliver (f : List Byte) : (tcpDeliver f s).latched = s.latched := by
  unfold tcpDeliver
  split
  · simp
  · split <;> simp

@[simp] theorem latched_rtuErr (err : Status) : (rtuErr err s).latched = s.latched := by
  unfold rtuErr
  extract_lets u
  split <;> simp [u]

@[simp] theorem latched_rtuAnswer (f : List Byte) : (rtuAnswer f s).latched = s.latched := by
  unfold rtuAnswer
  split <;> simp

@[simp] theorem latched_rtuFrame (f : List Byte) : (rtuFrame f s).latched = s.latched := by
  unfold rtuFrame
  extract_lets u
  split <;> simp [u, rtuStray]

@[simp] theorem latched_rtuChecked (f : List Byte) : (rtuChecked f s).latched = s.latched := by
  simp [rtuChecked, apply_ite State.latched]

@[simp] theorem latched_rtuCheck : (rtuCheck s).latched = s.latched := by
  unfold rtuCheck
  split <;> simp [apply_ite State.latched]

@[simp] theorem latched_silenceEnd : (silenceEnd s).latched = s.latched := by
  unfold silenceEnd
  split <;> simp [apply_ite State.latched]

theorem latched_onRxByte (b : Byte) : (onRxByte b s).latched = s.latched := by
  unfold onRxByte
  split
  · split
    · simp [tcpRxByte, tcpCheck, apply_ite State.latched]
    · unfold rtuRxByte
      extract_lets u
      split
      · rfl
      · split <;> simp [u]
  · rfl

theorem latched_onRxIdle : (onRxIdle s).latched = s.latched := by
  simp [onRxIdle, rtuIdle, apply_ite State.latched]

end

/-- EXECUTE fills the Idle context that accepts it, and writes no other (R250, R253). -/
theorem onExecute_latched (h : Handle) (r : Req) (cfg : ExecCfg) (s : State) :
    (onExecute h r cfg s).latched = s.latched ∨
      ∃ i, (s.ctx i).phase = .idle ∧
        ((onExecute h r cfg s).ctx i).req = r ∧ ((onExecute h r cfg s).ctx i).cfg = cfg ∧
        ∀ j, j ≠ i → (onExecute h r cfg s).ctx j = s.ctx j := by
  rcases onExecute_accepts h r cfg s with ⟨st, e⟩ | ⟨i, -, -, hi, e⟩
  · exact .inl (by rw [e]; rfl)
  · obtain ⟨hlt, hidle, -⟩ := (State.findIdle_some s i).mp hi
    have hc : (acceptExecute i h r cfg s).ctx i = acceptedCtx (s.ctx i) h r cfg .sending :=
      State.ctx_modCtx_same s i _ hlt
    obtain ⟨hreq, hcfg⟩ := State.latched_ctx (latched_sendAttempt i (acceptExecute i h r cfg s)) i
    rw [e]
    exact .inr ⟨i, by simpa using hidle, by rw [hreq, hc]; rfl, by rw [hcfg, hc]; rfl,
      ((turn_modCtx i _ s).trans (turn_sendAttempt i (acceptExecute i h r cfg s))).others⟩

/-- Settles O52: of the instructions only an EXECUTE writes a latched request, and only in the Idle context it fills. -/
theorem latchedRequestKept : Obligations.LatchedRequestKept := by
  intro i s t j e _
  have kept := fun h : t.latched = s.latched => State.latched_ctx h j
  cases exec_completes e with
  | codec i v ht => exact .inl (kept (by rw [ht]; rfl))
  | crcInit ht => exact .inl (kept (by rw [ht]; rfl))
  | crcUpdate b ht => exact .inl (kept (by rw [ht]; rfl))
  | execute h r c _ ht =>
    rcases onExecute_latched h r c s.begin with hk | ⟨k, hidle, hreq, hcfg, hother⟩
    · exact .inl (kept (by rw [ht]; exact hk))
    · rw [← ht] at hreq hcfg hother
      by_cases hj : j = k
      · subst hj
        exact .inr ⟨hidle, h, r, c, rfl, hreq, hcfg⟩
      · rw [hother j hj]
        exact .inl ⟨rfl, rfl⟩
  | cancel h _ ht => exact .inl (kept (by rw [ht]; exact latched_onCancel s.begin h))
  | rxByte b _ _ ht => exact .inl (kept (by rw [ht]; exact latched_onRxByte s.begin b))
  | rxIdle _ ht => exact .inl (kept (by rw [ht]; exact latched_onRxIdle s.begin))
  | tick _ ht => exact .inl (kept (by rw [ht]; exact latched_onTick s.begin))
  | linkUp _ ht => exact .inl (kept (by rw [ht]; exact latched_onLinkUp s.begin))
  | linkDown _ ht => exact .inl (kept (by rw [ht]; exact latched_onLinkDown s.begin))

end Sys2Proof.Machine
end

section
/-! SUPPORT. What reset leaves (10_state R53, 70_reset_and_hazards R330), and the invariants there. -/

namespace Sys2Proof.Machine

theorem State.resetOf_ctxs_mem {p : Params} {c : Ctx} (h : c ∈ (State.resetOf p).ctxs) : c = Ctx.reset :=
  List.eq_of_mem_replicate h

theorem State.resetOf_length (p : Params) : (State.resetOf p).ctxs.length = p.nCtx := List.length_replicate

/-- With parameters in range the table is one that R11 and R40 give. -/
theorem State.resetOf_tableOk {p : Params} (h : p.inRange) : (State.resetOf p).tableOk = true := by
  obtain ⟨kind, n, w⟩ := p
  cases kind with
  | rtu => rfl
  | tcp => simpa [State.tableOk, State.resetOf, Params.nCtx] using h

theorem State.resetOf_receiveOk (p : Params) : (State.resetOf p).ReceiveOk :=
  State.receiveOk_of_cleared rfl nofun rfl (fun _ => rfl) nofun

/-- A context at reset is free. -/
theorem Ctx.reset_ownOk : Ctx.reset.OwnOk := ⟨rfl, by decide, by decide⟩

theorem State.resetOf_inv {p : Params} (h : p.inRange) : (State.resetOf p).Inv := by
  have hctx : ∀ j < (State.resetOf p).ctxs.length, (State.resetOf p).ctx j = Ctx.reset :=
    fun j hj => State.resetOf_ctxs_mem (State.ctx_mem hj)
  refine (State.inv_iff (Nat.le_refl _)).mpr ⟨State.resetOf_tableOk h, fun j hj _ => hctx j hj ▸ Ctx.reset_ownOk,
    fun j hj _ _ => hctx j hj ▸ State.linkOk_of_free (.inl rfl), fun j hj k hk _ _ _ => ?_, State.resetOf_receiveOk p⟩
  rw [hctx j hj, hctx k hk]
  exact ⟨nofun, nofun⟩

theorem State.resetOf_deadlinesAhead (p : Params) : (State.resetOf p).DeadlinesAhead := by
  intro c hc
  rw [State.resetOf_ctxs_mem hc]
  exact ⟨nofun, nofun⟩

theorem State.resetOf_handlesFit (p : Params) : (State.resetOf p).HandlesFit := by
  refine ⟨fun c hc => ?_, nofun⟩
  rw [State.resetOf_ctxs_mem hc]
  exact Nat.two_pow_pos _

/-- The parameters that a state of the machine was made with. -/
def State.params (s : State) : Params := ⟨s.kind, s.ctxs.length, s.handleW⟩

/-- On RTU a state of the machine has the one context that R11 gives, on TCP as many as the parameter says. -/
theorem State.params_nCtx {s : State} (h : s.legal = true) : s.params.nCtx = s.ctxs.length := by
  obtain ⟨htable, -, -⟩ := (State.legal_iff s).mp h
  unfold Params.nCtx
  split
  · rename_i hk
    exact (State.length_of_rtu htable hk).symm
  · rfl

/-- Settles O46: the reset values are those of `State.resetOf`, which the reset input puts a state to. -/
theorem resetValues : Obligations.ResetValues :=
  ⟨fun p _ => ⟨rfl, rfl, rfl, rfl, rfl, rfl, rfl, rfl, State.resetOf_length p, rfl, fun _ => State.resetOf_ctxs_mem⟩,
    fun s hs => ⟨s.params, rfl, State.params_nCtx hs, rfl, rfl, rfl, rfl⟩⟩

/-- Settles O47: at reset every context is free and the buffer is empty. -/
theorem invariantsAtReset : Obligations.InvariantsAtReset := by
  have h : ∀ p : Params, p.inRange →
      (State.resetOf p).Inv ∧ (State.resetOf p).DeadlinesAhead ∧ (State.resetOf p).HandlesFit :=
    fun p hp => ⟨State.resetOf_inv hp, State.resetOf_deadlinesAhead p, State.resetOf_handlesFit p⟩
  exact ⟨h, h Config.instanceParams (by decide)⟩

end Sys2Proof.Machine
end

section
/-! SUPPORT. What a step may emit, said once for each procedure (30_encoding R105 to R110; 60_exceptions R305). -/

namespace Sys2Proof.Machine

/-! ### Outputs that are in order -/

/-- An output has the fields that its status and the kind call for (R109, R110, R305). -/
def Output.FieldsOk (k : Kind) : Output → Prop
  | .txFrame _ => True
  | .reqOpen => True
  | .reqClose => True
  | .result r =>
    (r.body.isSome = true ↔ r.status = .ok) ∧ (r.tid.isSome = true ↔ r.status = .ok ∧ k = .tcp) ∧
      (r.status ≠ .modbusException → r.excCode = 0)
  | .note _ tid => tid.isSome = true ↔ k = .tcp

/-- What the procedures emit from a state on: no REQ_CLOSE (a TCP abort emits it before its contexts' turns), and a
frame only while the session is open. -/
structure State.MayEmit (s : State) (o : Output) : Prop where
  fields : o.FieldsOk s.kind
  noClose : o ≠ .reqClose
  sends : ∀ f, o = .txFrame f → s.link = .up

theorem State.mayEmit_reqOpen (s : State) : s.MayEmit .reqOpen := ⟨trivial, nofun, nofun⟩

theorem State.mayEmit_txFrame {s : State} (f : List Byte) (hu : s.link = .up) : s.MayEmit (.txFrame f) :=
  ⟨trivial, nofun, fun _ _ => hu⟩

theorem State.mayEmit_note {s : State} {k : NoteKind} {tid : Option Tid} (h : tid.isSome = true ↔ s.kind = .tcp) :
    s.MayEmit (.note k tid) :=
  ⟨h, nofun, nofun⟩

/-- A failing or refusing RESULT (R305). -/
theorem State.mayEmit_plainResult (s : State) (h : Handle) {st : Status} {code : Byte}
    (hc : st ≠ .modbusException → code = 0) (hok : st ≠ .ok := by decide) : s.MayEmit (plainResult h st code) :=
  ⟨⟨by simp [hok], by simp [hok], hc⟩, nofun, nofun⟩

/-- The RESULT of a good response (R109, R263). -/
theorem State.mayEmit_okResult {s : State} (h : Handle) {tid : Option Tid} (body : Body)
    (ht : tid.isSome = true ↔ s.kind = .tcp) : s.MayEmit (.result ⟨h, .ok, 0, tid, some body⟩) :=
  ⟨⟨by simp, by simpa using ht, fun _ => rfl⟩, nofun, nofun⟩

/-! ### The relation -/

/-- From s to t the kind stays, the session is neither opened nor closed, and the output list only grows, by outputs
that are in order. -/
structure Emits (s t : State) : Prop where
  kind : t.kind = s.kind
  up : t.link = .up ↔ s.link = .up
  outs : ∃ l, t.out = s.out ++ l ∧ ∀ o ∈ l, s.MayEmit o

theorem Emits.nothing {s t : State} (hk : t.kind = s.kind := by rfl)
    (hu : t.link = .up ↔ s.link = .up := by exact Iff.rfl) (ho : t.out = s.out := by rfl) : Emits s t :=
  ⟨hk, hu, [], by rw [ho, List.append_nil], nofun⟩

theorem Emits.one {s t : State} {o : Output} (h : s.MayEmit o) (hk : t.kind = s.kind := by rfl)
    (hu : t.link = .up ↔ s.link = .up := by exact Iff.rfl) (ho : t.out = s.out ++ [o] := by rfl) : Emits s t :=
  ⟨hk, hu, [o], ho, fun _ hp => List.mem_singleton.mp hp ▸ h⟩

theorem Emits.mayEmit {s t : State} {o : Output} (h : Emits s t) (ho : t.MayEmit o) : s.MayEmit o :=
  ⟨h.kind ▸ ho.fields, ho.noClose, fun f hf => h.up.mp (ho.sends f hf)⟩

theorem Emits.trans {s t u : State} (h : Emits s t) (k : Emits t u) : Emits s u where
  kind := k.kind.trans h.kind
  up := k.up.trans h.up
  outs := by
    obtain ⟨l, hl, hls⟩ := h.outs
    obtain ⟨m, hm, hms⟩ := k.outs
    refine ⟨l ++ m, by rw [hm, hl, List.append_assoc], fun o ho => ?_⟩
    rcases List.mem_append.mp ho with ho | ho
    · exact hls o ho
    · exact h.mayEmit (hms o ho)

/-- A branch that does something, or nothing. -/
theorem Emits.ite {s t : State} (p : Prop) [Decidable p] (h : Emits s t) : Emits s (if p then t else s) := by
  split
  · exact h
  · exact .nothing

theorem emits_forCtx {f : Nat → State → State} (hf : ∀ i t, Emits t (f i t)) (s : State) : Emits s (s.forCtx f) :=
  State.forCtx_induct (Emits s) f s .nothing fun i t _ ht => ht.trans (hf i t)

/-! ### The engine's procedures -/

theorem registerTxn_out (i : Nat) (s : State) : (registerTxn i s).out = s.out := by
  unfold registerTxn
  split <;> rfl

theorem transmit_out (i : Nat) (s : State) :
    (transmit i s).out = s.out ++ [.txFrame ((registerTxn i s).frameOf i)] := by
  rw [← registerTxn_out i s]
  unfold transmit sendFrame
  split <;> rfl

/-- `sending!` (R261): a frame only on an open session. -/
theorem emits_sendAttempt (i : Nat) (s : State) : Emits s (sendAttempt i s) := by
  have k := kept_sendAttempt i s
  cases hl : s.link with
  | down => exact .one s.mayEmit_reqOpen k.kind k.up (by rw [sendAttempt_of_down i s hl]; rfl)
  | opening => exact .nothing k.kind k.up (by rw [sendAttempt_of_opening i s hl]; rfl)
  | up =>
    have e := sendAttempt_of_up i s hl
    split at e
    · exact .nothing k.kind k.up (by rw [e]; rfl)
    · exact .one (State.mayEmit_txFrame _ hl) k.kind k.up (by rw [e, transmit_out]; rfl)

/-- `attempt_fail!` (R262). -/
theorem emits_attemptFail {err : Status} (i : Nat) (s : State) (hok : err ≠ .ok := by decide) :
    Emits s (attemptFail i err s) := by
  unfold attemptFail
  extract_lets s₁ s₂ s₃ s₄
  have h₂ : Emits s s₂ := by
    simp only [s₂]
    split <;> exact .nothing
  have h₃ : Emits s s₃ := h₂.trans .nothing
  have h₄ : Emits s s₄ := h₃.trans .nothing
  split
  · split
    · exact h₄.trans (emits_sendAttempt i s₄)
    · exact h₄
  · exact h₃.trans (.one (s₃.mayEmit_plainResult _ (fun _ => rfl) hok))

/-- `complete!` for a good response (R263): the id exactly on TCP. -/
theorem emits_completeGood (i : Nat) (body : Body) (s : State) : Emits s (completeGood i body s) := by
  have k := kept_completeGood i body s
  refine .one (State.mayEmit_okResult _ body ?_) k.kind k.up rfl
  show (match s.kind with | .tcp => some _ | .rtu => none : Option Tid).isSome = true ↔ s.kind = .tcp
  cases s.kind <;> simp

/-- `complete!` for an exception response (R263). -/
theorem emits_completeExc (i : Nat) (code : Byte) (s : State) : Emits s (completeExc i code s) :=
  have k := kept_completeExc i code s
  .one (s.mayEmit_plainResult _ (st := .modbusException) fun h => absurd rfl h) k.kind k.up rfl

/-! ### The engine's events -/

/-- EXECUTE (R250): a refusal, or an attempt. -/
theorem emits_onExecute (h : Handle) (r : Req) (cfg : ExecCfg) (s : State) : Emits s (onExecute h r cfg s) := by
  have hbusy : Emits s (s.emit (plainResult h .busy 0)) := .one (s.mayEmit_plainResult h (st := .busy) fun _ => rfl)
  unfold onExecute
  split
  · exact .one (s.mayEmit_plainResult h (st := .invalidRequest) fun _ => rfl)
  · split
    · exact hbusy
    · split
      · exact hbusy
      · rename_i i _
        exact Emits.trans .nothing (emits_sendAttempt i (acceptExecute i h r cfg s))

/-- CANCEL (R266). -/
theorem emits_onCancel (h : Handle) (s : State) : Emits s (onCancel h s) := by
  unfold onCancel
  split
  · exact .nothing
  · have hm := s.mayEmit_plainResult h (st := .cancelled) fun _ => rfl
    simp only [cancelCtx, cancelTxn_eq]
    split <;> exact .one hm

theorem emits_tickDeadline (i : Nat) (s : State) : Emits s (tickDeadline i s) := by
  have hawait : Emits s (deadlineAwait i s) := Emits.trans .nothing (emits_attemptFail i (expireTxn i _))
  have hresync : Emits s (deadlineResync i s) := Emits.trans .nothing (emits_sendAttempt i s.endDiscard.bufClear)
  unfold tickDeadline
  split
  · exact hawait.ite _
  · exact (emits_sendAttempt i s).ite _
  · exact hresync.ite _
  · exact (emits_attemptFail i s).ite _
  · exact Emits.ite _ .nothing
  all_goals exact .nothing

/-- One context's turn in TICK (R270). -/
theorem emits_tickCtx (i : Nat) (s : State) : Emits s (tickCtx i s) :=
  Emits.ite _ (.trans .nothing (emits_tickDeadline i (s.modCtx i _)))

/-- One context's turn in LINK_UP (R275). -/
theorem emits_linkUpCtx (i : Nat) (s : State) : Emits s (linkUpCtx i s) := (emits_sendAttempt i s).ite _

/-- One context's turn in LINK_DOWN (R276). -/
theorem emits_linkDownCtx (i : Nat) (s : State) : Emits s (linkDownCtx i s) := by
  unfold linkDownCtx
  split
  · exact emits_attemptFail i s
  · exact emits_attemptFail i s
  · exact emits_sendAttempt i s
  all_goals exact .nothing

/-- One context's turn in a TCP abort (R220). -/
theorem emits_tcpAbortCtx (bad : Tid) (i : Nat) (s : State) : Emits s (tcpAbortCtx bad i s) := by
  refine Emits.ite _ ?_
  split <;> exact emits_attemptFail i s

/-! ### The RTU receive side -/

/-- `rtu_err!` (R221). -/
theorem emits_rtuErr {err : Status} (s : State) (hok : err ≠ .ok := by decide) : Emits s (rtuErr err s) := by
  simp only [rtuErr]
  split
  · exact Emits.trans .nothing (emits_attemptFail 0 s.bufClear.startDiscard hok)
  all_goals exact .nothing

theorem emits_rtuAnswer (f : List Byte) (s : State) : Emits s (rtuAnswer f s) := by
  unfold rtuAnswer
  split
  · exact Emits.trans .nothing (emits_attemptFail 0 s.startDiscard)
  · exact emits_completeGood 0 _ s
  · exact emits_completeExc 0 _ s

section
variable {s : State} (hk : s.kind = .rtu)
include hk

/-- `rtu_frame!` (R213): a stray frame's NOTE has no id. -/
theorem emits_rtuFrame (f : List Byte) : Emits s (rtuFrame f s) := by
  have hm : s.MayEmit (.note .strayFrame none) := State.mayEmit_note (by simp [hk])
  simp only [rtuFrame]
  split
  · exact Emits.trans .nothing (emits_rtuAnswer f s.bufClear)
  all_goals exact .one hm

theorem emits_rtuChecked (f : List Byte) : Emits s (rtuChecked f s) := by
  unfold rtuChecked
  split
  · exact emits_rtuFrame hk f
  · exact emits_rtuErr s

/-- `rtu_check!` (R211). -/
theorem emits_rtuCheck : Emits s (rtuCheck s) := by
  unfold rtuCheck
  split
  · exact (emits_rtuChecked hk _).ite _
  all_goals exact .nothing

/-- `silence_end!` (R215). -/
theorem emits_silenceEnd : Emits s (silenceEnd s) := by
  unfold silenceEnd
  split
  · split
    · exact emits_rtuErr s
    · exact emits_rtuChecked hk _
  all_goals exact emits_rtuErr s

/-- RX_IDLE on an open RTU line (R214). -/
theorem emits_rtuIdle : Emits s (rtuIdle s) := by
  simp only [rtuIdle]
  split
  · exact Emits.trans .nothing (Emits.ite _ (emits_sendAttempt 0 s.endDiscard.bufClear.lineSilent))
  · exact Emits.trans .nothing (Emits.ite _ (emits_silenceEnd (s := s.lineSilent) hk))

/-- A byte on RTU (R210). -/
theorem emits_rtuRxByte (b : Byte) : Emits s (rtuRxByte b s) := by
  simp only [rtuRxByte]
  split
  · exact .nothing
  · split
    · exact Emits.trans .nothing (emits_rtuErr s.lineBusy)
    · exact Emits.trans .nothing (emits_rtuCheck (s := s.lineBusy.bufAppend b) hk)

end

theorem emits_onRxIdle (s : State) : Emits s (onRxIdle s) := by
  rcases onRxIdle_cases s with e | ⟨-, hk, e⟩
  · rw [e]; exact .nothing
  · rw [e]; exact emits_rtuIdle hk

/-! ### The TCP receive side, whose outputs are in order from the state as it is or from the closed session -/

/-- `tcp_abort!` (R220): the contexts fail after the REQ_CLOSE, with the session closed. -/
theorem emits_tcpAbort (bad : Tid) (s : State) : Emits s.closed (tcpAbort bad s) :=
  Emits.trans .nothing (emits_forCtx (emits_tcpAbortCtx bad) s.closed.bufClear)

section
variable {s : State} (hk : s.kind = .tcp)
include hk

/-- `tcp_deliver!` (R208): a stray frame's NOTE has its id. -/
theorem emits_tcpDeliver (f : List Byte) : Emits s (tcpDeliver f s) ∨ Emits s.closed (tcpDeliver f s) := by
  unfold tcpDeliver
  split
  · exact .inl (.one (State.mayEmit_note (iff_of_true rfl hk)))
  · split
    · exact .inr (emits_tcpAbort _ s)
    · exact .inl (emits_completeGood _ _ s)
    · exact .inl (emits_completeExc _ _ s)

/-- The MBAP framer (R206, R207). -/
theorem emits_tcpCheck : Emits s (tcpCheck s) ∨ Emits s.closed (tcpCheck s) := by
  unfold tcpCheck
  split
  · exact .inr (emits_tcpAbort _ s)
  · split
    · rcases emits_tcpDeliver (s := s.bufClear) hk s.bufBytes with h | h
      · exact .inl (Emits.trans .nothing h)
      · exact .inr (Emits.trans .nothing h)
    · exact .inl .nothing

end

/-- RX_BYTE (R205). -/
theorem emits_onRxByte (b : Byte) (s : State) : Emits s (onRxByte b s) ∨ Emits s.closed (onRxByte b s) := by
  rcases onRxByte_cases b s with e | ⟨hk, e⟩ | ⟨-, hk, e⟩
  · rw [e]
    exact .inl .nothing
  · rw [e]
    rcases emits_tcpCheck (s := s.bufAppend b) hk with h | h
    · exact .inl (Emits.trans .nothing h)
    · exact .inr (Emits.trans .nothing h)
  · rw [e]
    exact .inl (emits_rtuRxByte hk b)

/-! ### A step's output list -/

/-- From s the step to t emitted outputs that are in order, after a REQ_CLOSE at most, which closed the session. -/
def StepEmits (s t : State) : Prop :=
  ∃ u : State, Emits u t ∧ u.kind = s.kind ∧ (u.out = [] ∨ u.out = [.reqClose] ∧ u.link ≠ .up)

theorem Emits.step {s t : State} (h : Emits s.begin t) : StepEmits s t := ⟨s.begin, h, rfl, .inl rfl⟩

theorem stepEmits_rxByte (b : Byte) (s : State) : StepEmits s (onRxByte b s.begin) := by
  rcases emits_onRxByte b s.begin with h | h
  · exact h.step
  · exact ⟨s.begin.closed, h, rfl, .inr ⟨rfl, nofun⟩⟩

theorem stepEmits_linkUp (s : State) : StepEmits s (onLinkUp s.begin) := by
  rcases onLinkUp_cases s.begin with e | e
  · rw [e]; exact Emits.step .nothing
  · rw [e]; exact ⟨s.begin.setLink .up, emits_forCtx emits_linkUpCtx _, rfl, .inl rfl⟩

theorem stepEmits_linkDown (s : State) : StepEmits s (onLinkDown s.begin) := by
  unfold onLinkDown
  split
  · exact Emits.step .nothing
  · exact ⟨s.begin.linkLost, emits_forCtx emits_linkDownCtx _, rfl, .inl rfl⟩

theorem exec_stepEmits {i : Instr} {s t : State} (e : exec i s = .next t) : StepEmits s t := by
  cases exec_completes e with
  | codec i v ht => subst ht; exact Emits.step .nothing
  | crcInit ht => subst ht; exact Emits.step .nothing
  | crcUpdate b ht => subst ht; exact Emits.step .nothing
  | execute h r c _ ht => subst ht; exact (emits_onExecute h r c _).step
  | cancel h _ ht => subst ht; exact (emits_onCancel h _).step
  | rxByte b _ _ ht => subst ht; exact stepEmits_rxByte b s
  | rxIdle _ ht => subst ht; exact (emits_onRxIdle _).step
  | tick _ ht => subst ht; exact (emits_forCtx emits_tickCtx _).step
  | linkUp _ ht => subst ht; exact stepEmits_linkUp s
  | linkDown _ ht => subst ht; exact stepEmits_linkDown s

theorem StepEmits.fieldsOk {s t : State} {o : Output} (h : StepEmits s t) (ho : o ∈ t.out) : o.FieldsOk s.kind := by
  obtain ⟨u, h, hkind, hu⟩ := h
  obtain ⟨l, hl, hls⟩ := h.outs
  rcases List.mem_append.mp (hl ▸ ho) with ho | ho
  · rcases hu with hu | ⟨hu, -⟩
    · rw [hu] at ho; cases ho
    · rw [hu, List.mem_singleton] at ho; rw [ho]; trivial
  · exact hkind ▸ (hls o ho).fields

/-- A REQ_CLOSE stands first; after it there is no other, and no frame, because the session is closed (R346). -/
theorem StepEmits.reqClose {s t : State} (h : StepEmits s t) (ho : .reqClose ∈ t.out) :
    ∃ l, t.out = .reqClose :: l ∧ .reqClose ∉ l ∧ ∀ f, .txFrame f ∉ l := by
  obtain ⟨u, h, -, hu⟩ := h
  obtain ⟨l, hl, hls⟩ := h.outs
  have hclose : .reqClose ∉ l := fun hm => (hls _ hm).noClose rfl
  rcases hu with hu | ⟨hu, hdown⟩
  · rw [hl, hu] at ho
    exact absurd ho hclose
  · exact ⟨l, by rw [hl, hu]; rfl, hclose, fun f hf => hdown ((hls _ hf).sends f rfl)⟩

/-- Settles O53: every output of a step is in order, and only the REQ_CLOSE of an abort, which closes the session, can
stand before them. -/
theorem outputsWellFormed : Obligations.OutputsWellFormed := by
  intro i s t e
  have h := exec_stepEmits e
  refine ⟨fun _ => h.fieldsOk, fun _ _ => h.fieldsOk, fun ho => ?_⟩
  obtain ⟨l, hout, hclose, hframe⟩ := h.reqClose ho
  rw [hout]
  exact ⟨rfl, by rw [List.count_cons_self, List.count_eq_zero.mpr hclose], by simpa using hframe⟩

end Sys2Proof.Machine
end

section
/-! SUPPORT. The reserved codes of the event and the CRC words (30_encoding R119, 40_crc R130). -/

namespace Sys2Proof.Machine

theorem decodeEvent_reserved (hw : Nat) {code : Byte} (tail : List Byte) (h : code.toNat = 0 ∨ 8 ≤ code.toNat) :
    decodeEvent hw (code :: tail) = .error (.reservedEventType code) := by
  have hne : ∀ k : Byte, 0 < k.toNat → k.toNat < 8 → code ≠ k := by
    rintro k h0 h8 rfl
    omega
  simp [decodeEvent, hne]

theorem decodeCrcOp_reserved {code : Byte} (tail : List Byte) (h : 3 ≤ code.toNat) :
    decodeCrcOp (code :: tail) = .error (.reservedCrcOp code) := by
  have hne : ∀ k : Byte, k.toNat < 3 → code ≠ k := by
    rintro k h3 rfl
    omega
  simp [decodeCrcOp, hne]

/-- Settles O3: a reserved code is none of those the decoders name, and a step refuses what does not decode. -/
theorem reservedWordsRefused : Obligations.ReservedWordsRefused :=
  ⟨fun hw _ tail h => decodeEvent_reserved hw tail h, fun _ _ tail h => decodeCrcOp_reserved tail h,
    fun _ _ _ _ => step_of_error⟩

end Sys2Proof.Machine
end

section
/-! SUPPORT. The received events that are ignored (43_reassembly R205, R214). -/

namespace Sys2Proof.Machine

theorem onRxByte_of_not_up (b : Byte) {s : State} (hu : s.link ≠ .up) : onRxByte b s = s := if_neg hu

theorem onRxIdle_of_not_up_or_tcp {s : State} (h : s.link ≠ .up ∨ s.kind = .tcp) : onRxIdle s = s := by
  refine if_neg fun ⟨hup, hrtu⟩ => ?_
  rcases h with hu | hk
  · exact hu hup
  · rw [hk] at hrtu; cases hrtu

/-- Settles O27: the step of an ignored event only begins. -/
theorem rxByteNotTaken : Obligations.RxByteNotTaken := by
  intro s b hl
  refine ⟨fun hu => ⟨s.begin, ?_, s.begin_block, rfl⟩, fun h => ⟨s.begin, ?_, s.begin_block, rfl⟩⟩
  · calc exec (.evRxByte b) s = .next (onRxByte b s.begin) := execEvRxByte_next hl (.inr (.inl hu))
      _ = .next s.begin := by rw [onRxByte_of_not_up (s := s.begin) b hu]
  · calc exec .evRxIdle s = .next (onRxIdle s.begin) := runEvent_legal hl
      _ = .next s.begin := by rw [onRxIdle_of_not_up_or_tcp (s := s.begin) h]

end Sys2Proof.Machine
end

section
/-! SUPPORT. The CRC generator: its shift step bit by bit, the residue of a sequence that its own CRC follows, and runs of
its operations (40_crc R130 to R136). -/

namespace Sys2Proof.Machine

/-! ### The shift step and the residue (R132, R136) -/

theorem and_one_eq_one_iff (c : Word16) : c &&& 1 = 1 ↔ c.getLsbD 0 = true := by
  rw [show (1 : Word16) = 1#16 from rfl, BitVec.and_one_eq_setWidth_ofBool_getLsbD]
  cases c.getLsbD 0 <;> decide

theorem crcShift_eq_ite (c : Word16) : crcShift c = if c &&& 1 = 1 then (c >>> 1) ^^^ 0xA001 else c >>> 1 := by
  simp only [crcShift, and_one_eq_one_iff]

theorem crcUpdateByte_eq_repeat (c : Word16) (b : Byte) :
    crcUpdateByte c b = Nat.repeat crcShift 8 (c ^^^ b.setWidth 16) := rfl

/-- Shift steps that drop only zeros never apply the polynomial. -/
theorem repeat_crcShift_of_low_zero (n : Nat) (c : Word16) (h : ∀ k < n, c.getLsbD k = false) :
    Nat.repeat crcShift n c = c >>> n := by
  induction n with
  | zero => rfl
  | succ n ih =>
    have hbit : (c >>> n).getLsbD 0 = false := by simpa using h n (by omega)
    calc Nat.repeat crcShift (n + 1) c = crcShift (c >>> n) := by
          rw [Nat.repeat, ih fun k hk => h k (by omega)]
      _ = (c >>> n) >>> 1 := by rw [crcShift, hbit]; rfl
      _ = c >>> (n + 1) := (BitVec.shiftRight_add c n 1).symm

/-- A byte equal to the register's low byte cancels it: the update leaves the high byte alone. -/
theorem crcUpdateByte_low (c : Word16) : crcUpdateByte c (c.extractLsb' 0 8) = c >>> 8 := by
  have hlow : ∀ k < 8, (c ^^^ (c.extractLsb' 0 8).setWidth 16).getLsbD k = false := by
    intro k hk
    simp [hk, show k < 16 by omega]
  have hhigh : (c ^^^ (c.extractLsb' 0 8).setWidth 16) >>> 8 = c >>> 8 := by
    ext k hk
    simp
  rw [crcUpdateByte_eq_repeat, repeat_crcShift_of_low_zero 8 _ hlow, hhigh]

/-- The register's own two bytes, low byte first, bring it to 0. -/
theorem foldl_crcUpdateByte_le16 (c : Word16) : (le16 c).foldl crcUpdateByte c = 0 := by
  have hhigh : c.extractLsb' 8 8 = (c >>> 8).extractLsb' 0 8 := by
    ext k hk
    simp
  calc (le16 c).foldl crcUpdateByte c
      = crcUpdateByte (crcUpdateByte c (c.extractLsb' 0 8)) (c.extractLsb' 8 8) := rfl
    _ = (c >>> 8) >>> 8 := by rw [crcUpdateByte_low, hhigh, crcUpdateByte_low]
    _ = 0 := by rw [← BitVec.shiftRight_add]; exact BitVec.ushiftRight_eq_zero (by omega)

theorem crc16_append (l m : List Byte) : crc16 (l ++ m) = m.foldl crcUpdateByte (crc16 l) := List.foldl_append

theorem crc16_append_le16_crc16 (l : List Byte) : crc16 (l ++ le16 (crc16 l)) = 0 := by
  rw [crc16_append, foldl_crcUpdateByte_le16]

/-- Settles O10: a built RTU frame is its unit and PDU followed by their CRC. -/
theorem crcResidue : Obligations.CrcResidue :=
  ⟨crc16_append_le16_crc16, fun unit p => crc16_append_le16_crc16 (unit :: p)⟩

/-! ### The operations as instructions (R131 to R133) -/

theorem exec_crcInit (s : State) : exec .crcInit s = .next s.begin.crcInit := rfl

theorem exec_crcUpdate (b : Byte) (s : State) : exec (.crcUpdate b) s = .next (s.begin.crcUpdate b) := rfl

theorem exec_crcRead (s : State) : exec .crcRead s = .next { s.begin with codec := .crc s.crc } := rfl

theorem State.crcInit_block (s : State) : s.crcInit.block = { s.block with crc := 0xFFFF } := rfl

theorem State.crcUpdate_block (b : Byte) (s : State) :
    (s.crcUpdate b).block = { s.block with crc := crcUpdateByte s.crc b } := rfl

/-- Settles O11: both operations complete by definition, and the model's shift step is the one of R132. -/
theorem crcInitAndUpdate : Obligations.CrcInitAndUpdate := by
  refine ⟨fun hw => decodeEncode hw .crcInit rfl, fun s => ⟨_, exec_crcInit s, s.begin.crcInit_block, rfl⟩,
    fun hw b => decodeEncode hw (.crcUpdate b) rfl, fun s b => ⟨_, exec_crcUpdate b s, ?_, rfl⟩⟩
  rw [State.crcUpdate_block, crcUpdateByte_eq_repeat, BitVec.ofNat_toNat, funext crcShift_eq_ite]
  rfl

/-! ### Runs of the operations (R133) -/

/-- A run that goes on after a first instruction is a run with that instruction in front. -/
theorem runInstrs_cons {i : Instr} {is : List Instr} {s t u : State} {outs : List (List Output)}
    (e : exec i s = .next t) (h : runInstrs is t = some (outs, u)) :
    runInstrs (i :: is) s = some (t.out :: outs, u) := by
  rw [runInstrs, e]
  simp [h]

/-- CRC_UPDATE of each byte and CRC_READ return the register folded over the bytes, whatever it holds at the start. -/
theorem runInstrs_crcUpdates_crcRead (l : List Byte) (s : State) :
    ∃ outs t, runInstrs (l.map .crcUpdate ++ [.crcRead]) s = some (outs, t) ∧
      t.codec = .crc (l.foldl crcUpdateByte s.crc) := by
  induction l generalizing s with
  | nil => exact ⟨_, _, runInstrs_cons (exec_crcRead s) rfl, rfl⟩
  | cons b l ih =>
    obtain ⟨outs, t, hrun, hcodec⟩ := ih (s.begin.crcUpdate b)
    exact ⟨_, t, runInstrs_cons (exec_crcUpdate b s) hrun, hcodec⟩

/-- Settles O12: CRC_INIT starts the fold over the bytes at 0xFFFF, which is where `crc16` starts. -/
theorem crcReadEffect : Obligations.CrcReadEffect := by
  refine ⟨fun hw => decodeEncode hw .crcRead rfl, fun s => ⟨_, exec_crcRead s, rfl, s.begin_block, rfl⟩,
    fun s l => ?_, rfl, fun _ _ => rfl⟩
  obtain ⟨outs, t, hrun, hcodec⟩ := runInstrs_crcUpdates_crcRead l s.begin.crcInit
  exact ⟨_, t, runInstrs_cons (exec_crcInit s) hrun, hcodec⟩

end Sys2Proof.Machine
end

section
/-! SUPPORT. Validation as a table: the requests it accepts, one row per function code (41_encode R140 to R146). -/

namespace Sys2Proof.Machine

/-! ### The checks at each function code -/

section
variable (u : Byte) (a q : Word16) (rs : List Word16) (cs : List Bool)

theorem requestOk_readCoils :
    requestOk ⟨0x01, u, a, q, rs, cs⟩ = true ↔ rangeOk Config.maxCoilQty a q = true ∧ rs = [] ∧ cs = [] := by
  simp [requestOk, functionCodeOk, limitsOk, payloadOk, quantityOk, rangeOk]

theorem requestOk_readHoldingRegisters :
    requestOk ⟨0x03, u, a, q, rs, cs⟩ = true ↔ rangeOk Config.maxRegQty a q = true ∧ rs = [] ∧ cs = [] := by
  simp [requestOk, functionCodeOk, limitsOk, payloadOk, quantityOk, rangeOk]

theorem requestOk_writeSingleRegister :
    requestOk ⟨0x06, u, a, q, rs, cs⟩ = true ↔ q = 1 ∧ rs.length = 1 ∧ cs = [] := by
  simp [requestOk, functionCodeOk, limitsOk, payloadOk]

theorem requestOk_writeMultipleCoils :
    requestOk ⟨0x0F, u, a, q, rs, cs⟩ = true ↔
      rangeOk Config.maxCoilQty a q = true ∧ rs = [] ∧ cs.length = q.toNat := by
  simp [requestOk, functionCodeOk, limitsOk, payloadOk, quantityOk, rangeOk]

theorem requestOk_writeMultipleRegisters :
    requestOk ⟨0x10, u, a, q, rs, cs⟩ = true ↔
      rangeOk Config.maxRegQty a q = true ∧ rs.length = q.toNat ∧ cs = [] := by
  simp [requestOk, functionCodeOk, limitsOk, payloadOk, quantityOk, rangeOk]

end

theorem functionCodeOk_iff (fc : Byte) :
    functionCodeOk fc = true ↔ fc = 0x01 ∨ fc = 0x03 ∨ fc = 0x06 ∨ fc = 0x0F ∨ fc = 0x10 := by
  simp [functionCodeOk, or_assoc]

/-! ### The valid requests -/

/-- The requests of the limit and payload tables (R141, R142), each with the lists its function code uses. -/
inductive ValidRequest : Req → Prop where
  /-- 0x01. -/
  | readCoils (u : Byte) (a q : Word16) : rangeOk Config.maxCoilQty a q = true → ValidRequest ⟨0x01, u, a, q, [], []⟩
  /-- 0x03. -/
  | readHoldingRegisters (u : Byte) (a q : Word16) : rangeOk Config.maxRegQty a q = true →
      ValidRequest ⟨0x03, u, a, q, [], []⟩
  /-- 0x06: one register, any address. -/
  | writeSingleRegister (u : Byte) (a v : Word16) : ValidRequest ⟨0x06, u, a, 1, [v], []⟩
  /-- 0x0F: as many coils as the quantity. -/
  | writeMultipleCoils (u : Byte) (a q : Word16) (cs : List Bool) : rangeOk Config.maxCoilQty a q = true →
      cs.length = q.toNat → ValidRequest ⟨0x0F, u, a, q, [], cs⟩
  /-- 0x10: as many registers as the quantity. -/
  | writeMultipleRegisters (u : Byte) (a q : Word16) (rs : List Word16) : rangeOk Config.maxRegQty a q = true →
      rs.length = q.toNat → ValidRequest ⟨0x10, u, a, q, rs, []⟩

theorem requestOk_of_validRequest {r : Req} (h : ValidRequest r) : requestOk r = true := by
  cases h with
  | readCoils u a q hr => exact (requestOk_readCoils u a q [] []).mpr ⟨hr, rfl, rfl⟩
  | readHoldingRegisters u a q hr => exact (requestOk_readHoldingRegisters u a q [] []).mpr ⟨hr, rfl, rfl⟩
  | writeSingleRegister u a v => exact (requestOk_writeSingleRegister u a 1 [v] []).mpr ⟨rfl, rfl, rfl⟩
  | writeMultipleCoils u a q cs hr hl => exact (requestOk_writeMultipleCoils u a q [] cs).mpr ⟨hr, rfl, hl⟩
  | writeMultipleRegisters u a q rs hr hl => exact (requestOk_writeMultipleRegisters u a q rs []).mpr ⟨hr, hl, rfl⟩

theorem validRequest_of_requestOk {r : Req} (h : requestOk r = true) : ValidRequest r := by
  obtain ⟨fc, u, a, q, rs, cs⟩ := r
  have hfc : functionCodeOk fc = true := by
    simp only [requestOk, Bool.and_eq_true] at h
    exact h.1.1
  rcases (functionCodeOk_iff fc).mp hfc with rfl | rfl | rfl | rfl | rfl
  · obtain ⟨hr, rfl, rfl⟩ := (requestOk_readCoils ..).mp h
    exact .readCoils u a q hr
  · obtain ⟨hr, rfl, rfl⟩ := (requestOk_readHoldingRegisters ..).mp h
    exact .readHoldingRegisters u a q hr
  · obtain ⟨rfl, hl, rfl⟩ := (requestOk_writeSingleRegister ..).mp h
    obtain ⟨v, rfl⟩ := List.length_eq_one_iff.mp hl
    exact .writeSingleRegister u a v
  · obtain ⟨hr, rfl, hl⟩ := (requestOk_writeMultipleCoils ..).mp h
    exact .writeMultipleCoils u a q cs hr hl
  · obtain ⟨hr, hl, rfl⟩ := (requestOk_writeMultipleRegisters ..).mp h
    exact .writeMultipleRegisters u a q rs hr hl

theorem validate_iff (r : Req) (c : ExecCfg) :
    validate r c = true ↔ 1 ≤ c.timeoutMs.toNat ∧ ValidRequest r := by
  rw [validate, Bool.and_eq_true, and_comm, cfgOk, decide_eq_true_eq]
  exact and_congr_right' ⟨validRequest_of_requestOk, requestOk_of_validRequest⟩

theorem validRequest_of_validate {r : Req} {c : ExecCfg} (h : validate r c = true) : ValidRequest r :=
  ((validate_iff r c).mp h).2

theorem ValidRequest.regs_length_le {r : Req} (h : ValidRequest r) : r.regs.length ≤ 125 := by
  cases h with
  | writeMultipleRegisters u a q rs hr hl => exact hl ▸ ((rangeOk_iff ..).mp hr).2.1
  | _ => simp

theorem ValidRequest.coils_length_le {r : Req} (h : ValidRequest r) : r.coils.length ≤ 2000 := by
  cases h with
  | writeMultipleCoils u a q cs hr hl => exact hl ▸ ((rangeOk_iff ..).mp hr).2.1
  | _ => simp

/-- Settles O9: the table's disjuncts are the rows of `ValidRequest`, and no row has an over-long list. -/
theorem validationTable : Obligations.ValidationTable := by
  refine ⟨fun r c => (validate_iff r c).trans (and_congr_right' ⟨fun h => ?_, fun h => ?_⟩), fun r c hlong => ?_⟩
  · cases h with
    | readCoils u a q hr =>
      obtain ⟨h1, hq, ha⟩ := (rangeOk_iff ..).mp hr
      exact .inl ⟨rfl, h1, hq, ha, rfl, rfl⟩
    | readHoldingRegisters u a q hr =>
      obtain ⟨h1, hq, ha⟩ := (rangeOk_iff ..).mp hr
      exact .inr (.inl ⟨rfl, h1, hq, ha, rfl, rfl⟩)
    | writeSingleRegister u a v => exact .inr (.inr (.inl ⟨rfl, rfl, rfl, rfl⟩))
    | writeMultipleCoils u a q cs hr hl =>
      obtain ⟨h1, hq, ha⟩ := (rangeOk_iff ..).mp hr
      exact .inr (.inr (.inr (.inl ⟨rfl, h1, hq, ha, rfl, hl⟩)))
    | writeMultipleRegisters u a q rs hr hl =>
      obtain ⟨h1, hq, ha⟩ := (rangeOk_iff ..).mp hr
      exact .inr (.inr (.inr (.inr ⟨rfl, h1, hq, ha, hl, rfl⟩)))
  · obtain ⟨fc, u, a, q, rs, cs⟩ := r
    rcases h with ⟨rfl, h1, hq, ha, rfl, rfl⟩ | ⟨rfl, h1, hq, ha, rfl, rfl⟩ | ⟨rfl, rfl, hl, rfl⟩ |
      ⟨rfl, h1, hq, ha, rfl, hl⟩ | ⟨rfl, h1, hq, ha, hl, rfl⟩
    · exact .readCoils u a q ((rangeOk_iff ..).mpr ⟨h1, hq, ha⟩)
    · exact .readHoldingRegisters u a q ((rangeOk_iff ..).mpr ⟨h1, hq, ha⟩)
    · obtain ⟨v, rfl⟩ := List.length_eq_one_iff.mp hl
      exact .writeSingleRegister u a v
    · exact .writeMultipleCoils u a q cs ((rangeOk_iff ..).mpr ⟨h1, hq, ha⟩) hl
    · exact .writeMultipleRegisters u a q rs ((rangeOk_iff ..).mpr ⟨h1, hq, ha⟩) hl
  · refine Bool.eq_false_iff.mpr fun hv => ?_
    have hregs := (validRequest_of_validate hv).regs_length_le
    have hcoils := (validRequest_of_validate hv).coils_length_le
    omega

end Sys2Proof.Machine
end

section
/-! SUPPORT. Packed values byte by byte (41_encode R160, R161). -/

namespace Sys2Proof.Machine

/-- Coil k is bit `k mod 8` of byte `k div 8`, and a bit past the last coil is 0 (R160). -/
theorem packCoils_bit (c : List Bool) {k : Nat} (hk : k < 8 * (packCoils c).length) :
    (byteAt (packCoils c) (k / 8)).getLsbD (k % 8) = c.getD k false := by
  have hj : k / 8 < coilByteCount c.length := by
    rw [packCoils_length] at hk
    omega
  rw [byteAt_packCoils c hj, coilByte_getLsbD c (k / 8) (Nat.mod_lt k (by decide)), Nat.div_add_mod]

/-- Register k stands big-endian at bytes 2k and 2k + 1 (R161). -/
theorem packRegs_bytes (r : List Word16) {k : Nat} (hk : k < r.length) :
    [byteAt (packRegs r) (2 * k), byteAt (packRegs r) (2 * k + 1)] = be16 (r.getD k 0) := by
  induction r generalizing k with
  | nil => exact absurd hk (by simp)
  | cons v r ih =>
    cases k with
    | zero => rfl
    | succ k =>
      rw [packRegs_cons, Nat.mul_succ, Nat.add_right_comm, byteAt_be16_add, byteAt_be16_add]
      exact ih (Nat.lt_of_succ_lt_succ hk)

/-- Settles O8: lengths and places by the lemmas above, and unpacking with no byte after the packed ones. -/
theorem packedValues : Obligations.PackedValues := by
  refine ⟨fun c => ⟨packCoils_length c, fun k => packCoils_bit c, ?_⟩,
    fun r => ⟨packRegs_length r, fun k => packRegs_bytes r, ?_⟩⟩
  · simpa using unpackCoils_packCoils c []
  · simpa using unpackRegs_packRegs r []

end Sys2Proof.Machine
end

section
/-! SUPPORT. The PDU and the two envelopes of a valid request: their bytes, their lengths, and decoding them
(41_encode R150 to R163; 42_decode R171, R172). -/

namespace Sys2Proof.Machine

/-! ### The PDU -/

/-- R155, with the byte count from the quantity. -/
theorem pduWriteMultipleCoils_eq (a : Word16) {q : Word16} {cs : List Bool} (hl : cs.length = q.toNat) :
    pduWriteMultipleCoils a q cs =
      [0x0F] ++ be16 a ++ be16 q ++ [BitVec.ofNat 8 ((q.toNat + 7) / 8)] ++ packCoils cs := by
  rw [pduWriteMultipleCoils, packCoils_length, hl, coilByteCount]

/-- R156, with the byte count from the quantity. -/
theorem pduWriteMultipleRegisters_eq (a : Word16) {q : Word16} {rs : List Word16} (hl : rs.length = q.toNat) :
    pduWriteMultipleRegisters a q rs =
      [0x10] ++ be16 a ++ be16 q ++ [BitVec.ofNat 8 (2 * q.toNat)] ++ packRegs rs := by
  rw [pduWriteMultipleRegisters, packRegs_length, hl]

theorem pduWriteMultipleCoils_length (a : Word16) {q : Word16} {cs : List Bool} (hl : cs.length = q.toNat) :
    (pduWriteMultipleCoils a q cs).length = 6 + (q.toNat + 7) / 8 := by
  simp [pduWriteMultipleCoils, hl, coilByteCount]
  omega

theorem pduWriteMultipleRegisters_length (a : Word16) {q : Word16} {rs : List Word16} (hl : rs.length = q.toNat) :
    (pduWriteMultipleRegisters a q rs).length = 6 + 2 * q.toNat := by
  simp [pduWriteMultipleRegisters, hl]
  omega

/-- R159: the length of the PDU by function code. -/
theorem ValidRequest.pduOf_length {r : Req} (h : ValidRequest r) :
    (pduOf r).length =
      if r.fc = 0x0F then 6 + (r.qty.toNat + 7) / 8 else if r.fc = 0x10 then 6 + 2 * r.qty.toNat else 5 := by
  cases h with
  | readCoils u a q _ => rfl
  | readHoldingRegisters u a q _ => rfl
  | writeSingleRegister u a v => rfl
  | writeMultipleCoils u a q cs _ hl => exact pduWriteMultipleCoils_length a hl
  | writeMultipleRegisters u a q rs _ hl => exact pduWriteMultipleRegisters_length a hl

theorem ValidRequest.pduOf_length_pos {r : Req} (h : ValidRequest r) : 1 ≤ (pduOf r).length := by
  rw [h.pduOf_length]
  split_ifs <;> omega

/-- With the unit id, a PDU fits the MBAP length field (R158). -/
theorem ValidRequest.pduOf_length_lt {r : Req} (h : ValidRequest r) : 1 + (pduOf r).length < 2 ^ 16 := by
  rw [h.pduOf_length]
  cases h with
  | writeMultipleRegisters u a q rs hr _ =>
    have hq : q.toNat ≤ 125 := ((rangeOk_iff ..).mp hr).2.1
    show 1 + (6 + 2 * q.toNat) < 2 ^ 16
    omega
  | writeMultipleCoils u a q cs hr _ =>
    have hq : q.toNat ≤ 2000 := ((rangeOk_iff ..).mp hr).2.1
    show 1 + (6 + (q.toNat + 7) / 8) < 2 ^ 16
    omega
  | _ => exact (by decide : 1 + 5 < 2 ^ 16)

theorem rdBE16_be16_nil (v : Word16) : rdBE16 (be16 v) 0 = v := rdBE16_be16 v []

/-- R163: `request_of_pdu` inverts `pdu_of`. -/
theorem ValidRequest.requestOfPdu_pduOf {r : Req} (h : ValidRequest r) : requestOfPdu r.unit (pduOf r) = r := by
  cases h with
  | readCoils u a q _ => simp [pduOf, pduReadCoils, requestOfPdu, rdBE16_be16_nil]
  | readHoldingRegisters u a q _ => simp [pduOf, pduReadHoldingRegisters, requestOfPdu, rdBE16_be16_nil]
  | writeSingleRegister u a v => simp [pduOf, pduWriteSingleRegister, requestOfPdu, rdBE16_be16_nil]
  | writeMultipleCoils u a q cs _ hl =>
    have hcoils : unpackCoils q.toNat (packCoils cs) = cs := by simpa [hl] using unpackCoils_packCoils cs []
    simp [pduOf, pduWriteMultipleCoils, requestOfPdu, hcoils]
  | writeMultipleRegisters u a q rs _ hl =>
    have hregs : unpackRegs q.toNat (packRegs rs) = rs := by simpa [hl] using unpackRegs_packRegs rs []
    simp [pduOf, pduWriteMultipleRegisters, requestOfPdu, hregs]

/-- The unit and the PDU determine a valid request (R162). -/
theorem ValidRequest.eq_of_pduOf_eq {r r' : Req} (h : ValidRequest r) (h' : ValidRequest r')
    (hu : r'.unit = r.unit) (hp : pduOf r' = pduOf r) : r' = r := by
  rw [← h'.requestOfPdu_pduOf, hu, hp, h.requestOfPdu_pduOf]

/-! ### The envelopes -/

theorem encodeFrame_rtu {r : Req} (h : ValidRequest r) (tid : Tid) :
    encodeFrame r .rtu tid = encodeRtu r.unit (pduOf r) := if_pos (requestOk_of_validRequest h)

theorem encodeFrame_tcp {r : Req} (h : ValidRequest r) (tid : Tid) :
    encodeFrame r .tcp tid = encodeTcp tid r.unit (pduOf r) := if_pos (requestOk_of_validRequest h)

@[simp] theorem le16_length (v : Word16) : (le16 v).length = 2 := rfl

@[simp] theorem encodeRtu_length (u : Byte) (p : List Byte) : (encodeRtu u p).length = p.length + 3 := by
  simp [encodeRtu]

@[simp] theorem encodeTcp_length (tid : Tid) (u : Byte) (p : List Byte) :
    (encodeTcp tid u p).length = p.length + 7 := by
  simp [encodeTcp]
  omega

/-- The MBAP length field is read back from the frame: it does not wrap (R158, R159). -/
theorem rdBE16_encodeTcp_len (tid : Tid) (u : Byte) {p : List Byte} (hp : 1 + p.length < 2 ^ 16) :
    (rdBE16 (encodeTcp tid u p) 4).toNat = p.length + 1 := by
  have hfield : rdBE16 (encodeTcp tid u p) 4 = BitVec.ofNat 16 (1 + p.length) := by simp [encodeTcp]
  rw [hfield, BitVec.toNat_ofNat, Nat.mod_eq_of_lt hp, Nat.add_comm]

/-! ### Decoding the envelopes -/

/-- The word read least significant byte first from its two bytes. -/
theorem rdLE16_append_le16 (l : List Byte) (v : Word16) : rdLE16 (l ++ le16 v) l.length = v := by
  rw [rdLE16, byteAt_append_length]
  exact (congrArg (_ ++ ·) (byteAt_append_length l (le16 v) 0)).trans (rdBE16_be16 v [])

theorem crcOk_append_le16_crc16 (m : List Byte) : crcOk (m ++ le16 (crc16 m)) = true := by
  have hlen : (m ++ le16 (crc16 m)).length - 2 = m.length := by simp
  rw [crcOk, hlen, List.take_left, rdLE16_append_le16, beq_self_eq_true]

theorem decodeRtu_encodeRtu (u : Byte) {p : List Byte} (hp : 1 ≤ p.length) :
    decodeRtu (encodeRtu u p) = .ok ⟨none, u, p⟩ := by
  have hslice : sliceBytes (encodeRtu u p) 1 ((encodeRtu u p).length - 2) = p := by
    rw [encodeRtu_length]
    simp [sliceBytes, encodeRtu]
  have hcrc : crcOk (encodeRtu u p) = true := crcOk_append_le16_crc16 (u :: p)
  rw [decodeRtu, if_neg (by rw [encodeRtu_length]; omega), if_pos hcrc, hslice]
  rfl

theorem decodeTcp_encodeTcp (tid : Tid) (u : Byte) {p : List Byte} (h1 : 1 ≤ p.length)
    (hp : 1 + p.length < 2 ^ 16) : decodeTcp (encodeTcp tid u p) = .ok ⟨some tid, u, p⟩ := by
  have hproto : rdBE16 (encodeTcp tid u p) 2 = 0 := by simp [encodeTcp]
  have hlen := rdBE16_encodeTcp_len tid u hp
  have hslice : sliceBytes (encodeTcp tid u p) 7 (6 + (p.length + 1)) = p := by
    have htail : (encodeTcp tid u p).drop 7 = p := by simp [encodeTcp]
    rw [sliceBytes, htail]
    exact List.take_of_length_le (by omega)
  rw [decodeTcp, hproto, hlen, hslice, encodeTcp_length, if_neg (by omega),
    if_neg (not_or.mpr ⟨not_not.mpr rfl, by omega⟩), if_neg (by omega), if_neg (by omega)]
  simp [encodeTcp]

/-- Settles O5: each envelope decodes to what it was built from, and the PDU gives the request. -/
theorem frameRoundTrip : Obligations.FrameRoundTrip := by
  intro r c tid hv
  have h := validRequest_of_validate hv
  refine ⟨?_, ?_, h.requestOfPdu_pduOf,
    fun r' c' hv' => h.eq_of_pduOf_eq (validRequest_of_validate hv')⟩
  · rw [encodeFrame_tcp h]
    exact decodeTcp_encodeTcp tid r.unit h.pduOf_length_pos h.pduOf_length_lt
  · rw [encodeFrame_rtu h]
    exact decodeRtu_encodeRtu r.unit h.pduOf_length_pos

/-- Settles O6: the PDU of each function code by its own rule, with the byte count from the quantity, and the two
envelopes. -/
theorem encodeFrames : Obligations.EncodeFrames := by
  intro r c tid hv
  have h := validRequest_of_validate hv
  have hok := requestOk_of_validRequest h
  obtain ⟨fc, u, a, q, rs, cs⟩ := r
  refine ⟨?_, ?_, ?_, ?_, ?_, encodeFrame_tcp h tid, encodeFrame_rtu h tid⟩
  · rintro rfl; rfl
  · rintro rfl; rfl
  · rintro rfl; rfl
  · rintro rfl
    exact pduWriteMultipleCoils_eq a ((requestOk_writeMultipleCoils ..).mp hok).2.2
  · rintro rfl
    exact pduWriteMultipleRegisters_eq a ((requestOk_writeMultipleRegisters ..).mp hok).2.1

/-- Settles O7: the lengths of the PDU and of the envelopes, and the MBAP length field read back. -/
theorem encodedLengths : Obligations.EncodedLengths := by
  intro r c tid hv
  have h := validRequest_of_validate hv
  rw [encodeFrame_rtu h, encodeFrame_tcp h]
  exact ⟨h.pduOf_length, encodeRtu_length _ _, encodeTcp_length _ _ _, rdBE16_encodeTcp_len _ _ h.pduOf_length_lt⟩

end Sys2Proof.Machine
end

section
/-! SUPPORT. The request rows as instructions (41_encode R150 to R158; 00_scope R17), and words written out from the
encodings. -/

namespace Sys2Proof.Machine

/-- On TCP a valid request row returns the MBAP frame of its PDU and writes nothing else. -/
theorem runEncode_tcp {r : Req} {s : State} {frame : List Byte} (tid : Tid) (hk : s.kind = .tcp) (h : ValidRequest r)
    (hf : encodeTcp tid r.unit (pduOf r) = frame) :
    ∃ t, runEncode r tid s = .next t ∧ t.block = s.block ∧ t.out = [] ∧ t.codec = .frame frame :=
  ⟨_, runCodec_eq _ s, rfl, rfl, by simp only [hk, encodeFrame_tcp h, hf]⟩

/-- On RTU a valid request row returns its unit and PDU with their CRC and writes nothing else. -/
theorem runEncode_rtu {r : Req} {s : State} (tid : Tid) (hk : s.kind = .rtu) (h : ValidRequest r) :
    ∃ t, runEncode r tid s = .next t ∧ t.block = s.block ∧ t.out = [] ∧
      t.codec = .frame (encodeRtu r.unit (pduOf r)) :=
  ⟨_, runCodec_eq _ s, rfl, rfl, by simp only [hk, encodeFrame_rtu h]⟩

/-- R158, with the MBAP length and the PDU given. -/
theorem encodeTcp_eq (tid : Tid) (u : Byte) {p p' : List Byte} {n : Nat} (hn : p.length = n) (hp : p = p') :
    encodeTcp tid u p = be16 tid ++ [0x00, 0x00] ++ be16 (BitVec.ofNat 16 (1 + n)) ++ [u] ++ p' := by
  subst hn hp
  rfl

/-- The frame of a PDU of 5 bytes (R159). -/
theorem encodeTcp_of_length_five (tid : Tid) (u : Byte) {p : List Byte} (hn : p.length = 5) :
    encodeTcp tid u p = be16 tid ++ [0x00, 0x00, 0x00, 0x06, u] ++ p := by
  rw [encodeTcp_eq tid u hn rfl, show be16 (BitVec.ofNat 16 (1 + 5)) = [0x00, 0x06] by decide]
  simp

/-- The operands of a well-formed multiple-coil row (R98, R155). -/
theorem wellFormed_reqWriteMultipleCoils {hw : Nat} {tid : Tid} {u : Byte} {a q : Word16} {cs : List Bool}
    (h : Instr.WellFormed hw (.reqWriteMultipleCoils tid u a q cs) = true) :
    rangeOk Config.maxCoilQty a q = true ∧ cs.length = q.toNat := by
  simpa [Instr.WellFormed] using h

/-- The operands of a well-formed multiple-register row (R99, R156). -/
theorem wellFormed_reqWriteMultipleRegisters {hw : Nat} {tid : Tid} {u : Byte} {a q : Word16} {rs : List Word16}
    (h : Instr.WellFormed hw (.reqWriteMultipleRegisters tid u a q rs) = true) :
    rangeOk Config.maxRegQty a q = true ∧ rs.length = q.toNat := by
  simpa [Instr.WellFormed] using h

/-- Settles O13: each well-formed row is a valid request, and its MBAP length follows from its PDU's. -/
theorem requestRowsTcp : Obligations.RequestRowsTcp := by
  intro s tid u a q v cs rs hk
  refine ⟨fun hwf => runEncode_tcp tid hk (.readCoils u a q hwf) (encodeTcp_of_length_five tid u rfl),
    fun hwf => runEncode_tcp tid hk (.readHoldingRegisters u a q hwf) (encodeTcp_of_length_five tid u rfl),
    runEncode_tcp tid hk (.writeSingleRegister u a v) (encodeTcp_of_length_five tid u rfl), fun hwf => ?_, fun hwf => ?_⟩
  · obtain ⟨hr, hl⟩ := wellFormed_reqWriteMultipleCoils hwf
    refine runEncode_tcp tid hk (.writeMultipleCoils u a q cs hr hl) ?_
    refine (encodeTcp_eq tid u (pduWriteMultipleCoils_length a hl) (pduWriteMultipleCoils_eq a hl)).trans ?_
    simp [← Nat.add_assoc]
  · obtain ⟨hr, hl⟩ := wellFormed_reqWriteMultipleRegisters hwf
    refine runEncode_tcp tid hk (.writeMultipleRegisters u a q rs hr hl) ?_
    refine (encodeTcp_eq tid u (pduWriteMultipleRegisters_length a hl) (pduWriteMultipleRegisters_eq a hl)).trans ?_
    simp [← Nat.add_assoc]

/-- Settles O14: each well-formed row is a valid request whose PDU is the one written out. -/
theorem requestRowsRtu : Obligations.RequestRowsRtu := by
  intro s tid u i p hk hwf hrow
  rcases hrow with ⟨a, q, rfl, rfl⟩ | ⟨a, q, rfl, rfl⟩ | ⟨a, v, rfl, rfl⟩ | ⟨a, q, cs, rfl, rfl⟩ | ⟨a, q, rs, rfl, rfl⟩
  · exact runEncode_rtu tid hk (.readCoils u a q hwf)
  · exact runEncode_rtu tid hk (.readHoldingRegisters u a q hwf)
  · exact runEncode_rtu tid hk (.writeSingleRegister u a v)
  · obtain ⟨hr, hl⟩ := wellFormed_reqWriteMultipleCoils hwf
    rw [← pduWriteMultipleCoils_eq a hl]
    exact runEncode_rtu tid hk (.writeMultipleCoils u a q cs hr hl)
  · obtain ⟨hr, hl⟩ := wellFormed_reqWriteMultipleRegisters hwf
    rw [← pduWriteMultipleRegisters_eq a hl]
    exact runEncode_rtu tid hk (.writeMultipleRegisters u a q rs hr hl)

/-- Settles O2: each word is the one the encoder writes for its instruction, at every width. -/
theorem writtenWordsDecode : Obligations.WrittenWordsDecode := fun hw =>
  ⟨decodeEncode hw (.reqReadCoils 0x1234 0x01 0x0013 0x0013) rfl,
    decodeEncode hw (.rspWriteMultipleCoils [0x00, 0x13, 0x00, 0x0A]) rfl,
    decodeEncode hw (.rspException83 [0x02]) rfl,
    decodeEncode hw (.evRxByte 0xFF) rfl, decodeEncode hw .evRxIdle rfl, decodeEncode hw .evTick rfl,
    decodeEncode hw .evLinkUp rfl, decodeEncode hw .evLinkDown rfl, decodeEncode hw .crcInit rfl,
    decodeEncode hw (.crcUpdate 0x55) rfl, decodeEncode hw .crcRead rfl⟩

end Sys2Proof.Machine
end

section
/-! SUPPORT. An EXECUTE that is refused (41_encode R147; 45_engine R250 to R252). -/

namespace Sys2Proof.Machine

section
variable {s : State} {h : Handle} {r : Req} {cfg : ExecCfg}

theorem onExecute_invalid (hv : validate r cfg = false) :
    onExecute h r cfg s = s.emit (plainResult h .invalidRequest 0) := if_pos hv

/-- Busy for an active handle (R251) and for no free context (R252). -/
theorem onExecute_busy (hv : validate r cfg = true) (hb : s.findActive h ≠ none ∨ s.findIdle = none) :
    onExecute h r cfg s = s.emit (plainResult h .busy 0) := by
  rw [onExecute, if_neg (by simp [hv])]
  split
  · rfl
  · rename_i hn
    have hidle : s.findIdle = none := hb.resolve_left (by simpa using hn)
    rw [hidle]

/-- In a state of the machine a context at rest that is neither Idle nor Draining is found by its handle (R251). -/
theorem State.findActive_ne_none (hl : s.legal = true) {c : Ctx} (hc : c ∈ s.ctxs) (hi : c.phase ≠ .idle)
    (hd : c.phase ≠ .draining) (hh : c.handle = h) : s.findActive h ≠ none := by
  intro hnone
  have hact : isActive c.phase = true :=
    (isActive_of_resting (((State.legal_iff s).mp hl).2.1 c hc)).mpr ⟨hi, hd⟩
  simpa [hact, hh] using (State.findActive_none s h).mp hnone c hc

/-- An EXECUTE whose handler only emits one output leaves the block as it was. -/
theorem exec_evExecute_of_emit (hl : s.legal = true) {o : Output}
    (he : onExecute h r cfg s.begin = s.begin.emit o) :
    ∃ t, exec (.evExecute h r cfg) s = .next t ∧ t.block = s.block ∧ t.out = [o] :=
  ⟨s.begin.emit o, (runEvent_legal hl).trans (congrArg _ he), rfl, rfl⟩

end

/-- Settles O22: each refusal only emits its RESULT. -/
theorem executeRefused : Obligations.ExecuteRefused := by
  intro s h r cfg hl
  refine ⟨fun hv => exec_evExecute_of_emit hl (onExecute_invalid hv),
    fun hv hb => exec_evExecute_of_emit hl (onExecute_busy hv ?_)⟩
  rcases hb with ⟨c, hc, hi, hd, hh⟩ | hidle
  · exact .inl (State.findActive_ne_none (s := s.begin) hl hc hi hd hh)
  · exact .inr ((State.findIdle_none s.begin).mpr fun c hc => beq_false_of_ne (hidle c hc))

end Sys2Proof.Machine
end

section
/-! SUPPORT. The response rows as instructions: what each response PDU decodes to, and the value its row returns
(42_decode R175 to R181; 30_encoding R111, R113, R118). -/

namespace Sys2Proof.Machine

/-! ### decode_pdu by the function code (R175) -/

theorem fcInScope_iff (fc : Byte) :
    fcInScope fc = true ↔ fc = 0x01 ∨ fc = 0x03 ∨ fc = 0x06 ∨ fc = 0x0F ∨ fc = 0x10 := functionCodeOk_iff fc

theorem excFcInScope_iff (fc : Byte) :
    excFcInScope fc = true ↔ fc = 0x81 ∨ fc = 0x83 ∨ fc = 0x86 ∨ fc = 0x8F ∨ fc = 0x90 := by
  simp [excFcInScope, or_assoc]

/-- R176: one byte after the function code is the exception code. -/
theorem decodePdu_exception {b : Byte} (h7 : b.getLsbD 7 = true) (p : List Byte) :
    decodePdu (b :: p) = if p.length = 1 then .exc (b &&& 0x7F) (byteAt p 0) else .invalid := by
  simp [decodePdu, h7, decodeExc]

theorem decodePdu_readCoils_nil : decodePdu [0x01] = .invalid := rfl

/-- R177: the byte count is the number of bytes that follow it. -/
theorem decodePdu_readCoils (n : Byte) (d : List Byte) :
    decodePdu (0x01 :: n :: d) = if d.length = n.toNat then .coilBytes d else .invalid := by
  simp [decodePdu, decodeReadCoils, Nat.add_comm 2]

theorem decodePdu_readHoldingRegisters_nil : decodePdu [0x03] = .invalid := rfl

/-- R178: the byte count is the number of bytes that follow it, and is even. -/
theorem decodePdu_readHoldingRegisters (n : Byte) (d : List Byte) :
    decodePdu (0x03 :: n :: d) =
      if d.length = n.toNat ∧ n.toNat % 2 = 0 then .regs (unpackRegs (n.toNat / 2) d) else .invalid := by
  simp [decodePdu, decodeReadHoldingRegisters, Nat.add_comm 2]

/-- The function codes of the write responses. -/
def IsWriteCode (fc : Byte) : Prop := fc = 0x06 ∨ fc = 0x0F ∨ fc = 0x10

/-- R179 to R181: the three write responses are decoded alike. -/
theorem decodePdu_write {fc : Byte} (hfc : IsWriteCode fc) (p : List Byte) :
    decodePdu (fc :: p) = if p.length = 4 then .wr fc (rdBE16 (fc :: p) 1) (rdBE16 (fc :: p) 3) else .invalid := by
  rcases hfc with rfl | rfl | rfl
  · simp [decodePdu, decodeWriteSingleRegister]
  · simp [decodePdu, decodeWriteMultipleCoils]
  · simp [decodePdu, decodeWriteMultipleRegisters]

/-- R118: a function code below 0x80 that is none of the five. -/
theorem decodePdu_unrecognised {fc : Byte} (h7 : fc.getLsbD 7 = false) (hfc : fcInScope fc = false) (p : List Byte) :
    decodePdu (fc :: p) = .invalid := by
  simp only [fcInScope, Bool.or_eq_false_iff, beq_eq_false_iff_ne] at hfc
  obtain ⟨⟨⟨⟨h01, h03⟩, h06⟩, h0F⟩, h10⟩ := hfc
  rw [decodePdu, if_neg (Bool.eq_false_iff.mp h7), if_neg h01, if_neg h03, if_neg h06, if_neg h0F, if_neg h10]

/-! ### The rows -/

/-- Every non-empty response PDU is a row whose meaning is `decode_pdu` of it (R175). -/
theorem decodeResponse_cons (fc : Byte) (p : List Byte) :
    ∃ i, decodeResponse (fc :: p) = .ok i ∧ ∀ s, exec i s = runCodec (.pdu (decodePdu (fc :: p))) s := by
  by_cases hfc : fcInScope fc = true
  · rcases (fcInScope_iff fc).mp hfc with rfl | rfl | rfl | rfl | rfl
    all_goals exact ⟨_, rfl, fun _ => rfl⟩
  by_cases hexc : excFcInScope fc = true
  · rcases (excFcInScope_iff fc).mp hexc with rfl | rfl | rfl | rfl | rfl
    all_goals exact ⟨_, rfl, fun _ => rfl⟩
  cases h7 : fc.getLsbD 7 with
  | true => exact ⟨_, decodeResponse_exception p h7 (Bool.eq_false_iff.mpr hexc), fun _ => rfl⟩
  | false => exact ⟨_, decodeResponse_unrecognised p h7 (Bool.eq_false_iff.mpr hfc), fun _ => rfl⟩

/-- The row of a response PDU completes in every state, returns `decode_pdu` of it and writes nothing else. -/
theorem exec_of_decode_response {hw : Nat} {p : List Byte} {i : Instr} {v : DecodedPdu}
    (hi : decode hw ⟨.response, p⟩ = .ok i) (hv : decodePdu p = v) (s : State) :
    ∃ t, exec i s = .next t ∧ t.block = s.block ∧ t.out = [] ∧ t.codec = .pdu v := by
  cases p with
  | nil => cases hi
  | cons fc p =>
    obtain ⟨j, hj, hexec⟩ := decodeResponse_cons fc p
    obtain rfl : j = i := Except.ok.inj (hj.symm.trans hi)
    exact ⟨_, (hexec s).trans (runCodec_eq _ s), rfl, rfl, congrArg _ hv⟩

/-- Settles O17: each PDU decodes to its row, and one outside the codes decodes to Invalid. -/
theorem responseRowsAgree : Obligations.ResponseRowsAgree := by
  refine ⟨fun s p hp => ?_, fun s fc p hwf => ?_⟩
  · obtain ⟨fc, p, rfl⟩ := List.exists_cons_of_ne_nil hp
    obtain ⟨i, hi, -⟩ := decodeResponse_cons fc p
    obtain ⟨t, ht⟩ := exec_of_decode_response (hw := s.handleW) (p := fc :: p) hi rfl s
    exact ⟨i, t, hi, ht⟩
  · have hdec : decode s.handleW ⟨.response, fc :: p⟩ = .ok (.rspUnrecognised fc p) := decodeEncode _ _ hwf
    simp only [Instr.WellFormed, Bool.and_eq_true, Bool.not_eq_true'] at hwf
    exact ⟨hdec, exec_of_decode_response hdec (decodePdu_unrecognised hwf.1 hwf.2 p) s⟩

/-- Settles O15: each row is the one its PDU decodes to, and the value follows from the PDU's length. -/
theorem responseRows : Obligations.ResponseRows := by
  intro s p
  refine ⟨exec_of_decode_response (decodeEncode s.handleW (.rspReadCoils p) rfl) ?_ s,
    exec_of_decode_response (decodeEncode s.handleW (.rspReadHoldingRegisters p) rfl) ?_ s,
    exec_of_decode_response (decodeEncode s.handleW (.rspWriteSingleRegister p) rfl)
      (decodePdu_write (.inl rfl) p) s,
    exec_of_decode_response (decodeEncode s.handleW (.rspWriteMultipleCoils p) rfl)
      (decodePdu_write (.inr (.inl rfl)) p) s,
    exec_of_decode_response (decodeEncode s.handleW (.rspWriteMultipleRegisters p) rfl)
      (decodePdu_write (.inr (.inr rfl)) p) s⟩
  · cases p with
    | nil => exact decodePdu_readCoils_nil
    | cons n d => exact decodePdu_readCoils n d
  · cases p with
    | nil => exact decodePdu_readHoldingRegisters_nil
    | cons n d =>
      refine (decodePdu_readHoldingRegisters n d).trans ?_
      simp [unpackRegs, Nat.add_comm 2]

/-- An exception row completes with the value of R176. -/
theorem exec_exception_row {s : State} {p : List Byte} {i : Instr} {fc : Byte} (h7 : fc.getLsbD 7 = true)
    (hi : decode s.handleW ⟨.response, fc :: p⟩ = .ok i) :
    ∃ t, exec i s = .next t ∧ t.block = s.block ∧ t.out = [] ∧ decode s.handleW ⟨.response, fc :: p⟩ = .ok i ∧
      t.codec = .pdu (if p.length = 1 then .exc (fc &&& 0x7F) (byteAt p 0) else .invalid) := by
  obtain ⟨t, ht, hblock, hout, hcodec⟩ := exec_of_decode_response hi (decodePdu_exception h7 p) s
  exact ⟨t, ht, hblock, hout, hi, hcodec⟩

/-- Settles O16: every code of the rows has bit 7 set. -/
theorem responseExceptionRows : Obligations.ResponseExceptionRows := by
  intro s p i fc base hrow
  rcases hrow with ⟨rfl, rfl, rfl⟩ | ⟨rfl, rfl, rfl⟩ | ⟨rfl, rfl, rfl⟩ | ⟨rfl, rfl, rfl⟩ | ⟨rfl, rfl, rfl⟩ |
    ⟨rfl, hwf, rfl⟩
  · exact exec_exception_row rfl (decodeEncode s.handleW (.rspException81 p) rfl)
  · exact exec_exception_row rfl (decodeEncode s.handleW (.rspException83 p) rfl)
  · exact exec_exception_row rfl (decodeEncode s.handleW (.rspException86 p) rfl)
  · exact exec_exception_row rfl (decodeEncode s.handleW (.rspException8F p) rfl)
  · exact exec_exception_row rfl (decodeEncode s.handleW (.rspException90 p) rfl)
  · have hdec := decodeEncode s.handleW (.rspException fc p) hwf
    simp only [Instr.WellFormed, Bool.and_eq_true] at hwf
    exact exec_exception_row hwf.1 hdec

end Sys2Proof.Machine
end

section
/-! SUPPORT. The response match of a valid request: the PDUs of the response layouts, and what each decodes to
(42_decode R176 to R188; 30_encoding R95 to R99, R111). -/

namespace Sys2Proof.Machine

/-! ### Reading what was packed, from the bytes -/

/-- A word's two bytes, most significant byte first. -/
theorem be16_append (a b : Byte) : be16 (a ++ b) = [a, b] := by
  rw [be16, BitVec.extractLsb'_append_eq_left, BitVec.extractLsb'_append_eq_right]

/-- Bytes of an even number are the packing of the registers read from them (R178). -/
theorem packRegs_unpackRegs {n : Nat} {d : List Byte} (h : d.length = 2 * n) : packRegs (unpackRegs n d) = d := by
  induction n generalizing d with
  | zero => exact (List.eq_nil_of_length_eq_zero h).symm
  | succ n ih =>
    match d, h with
    | a :: b :: d, h =>
      have hd : a :: b :: d = be16 (a ++ b) ++ d := by rw [be16_append]; rfl
      rw [hd, unpackRegs_be16, packRegs_cons, ih (by simpa [Nat.mul_succ] using h)]

/-- Four bytes are the two words read from them. -/
theorem eq_be16_append_be16 {p : List Byte} (h : p.length = 4) : p = be16 (rdBE16 p 0) ++ be16 (rdBE16 p 2) := by
  match p, h with
  | [a, b, c, d], _ => exact (congrArg₂ (· ++ ·) (be16_append a b) (be16_append c d)).symm

/-! ### The response layouts (R95 to R99, R111) -/

/-- The PDU of each response, with the value it carries. -/
inductive ResponseLayout : List Byte → DecodedPdu → Prop where
  /-- An exception response (R111). -/
  | exc (b code : Byte) : b.getLsbD 7 = true → ResponseLayout [b, code] (.exc (b &&& 0x7F) code)
  /-- 0x01 (R95). -/
  | coilBytes (d : List Byte) : d.length < 256 → ResponseLayout ([0x01, BitVec.ofNat 8 d.length] ++ d) (.coilBytes d)
  /-- 0x03 (R96). -/
  | regs (v : List Word16) : v.length < 128 →
      ResponseLayout ([0x03, BitVec.ofNat 8 (2 * v.length)] ++ packRegs v) (.regs v)
  /-- 0x06, 0x0F and 0x10 (R97, R98, R99). -/
  | write (fc : Byte) (a v : Word16) : IsWriteCode fc → ResponseLayout ([fc] ++ be16 a ++ be16 v) (.wr fc a v)

theorem decodePdu_of_responseLayout {p : List Byte} {d : DecodedPdu} (h : ResponseLayout p d) : decodePdu p = d := by
  cases h with
  | exc b code h7 => exact decodePdu_exception h7 [code]
  | coilBytes d hd =>
    have hn : (BitVec.ofNat 8 d.length).toNat = d.length := Nat.mod_eq_of_lt hd
    exact (decodePdu_readCoils _ d).trans (if_pos hn.symm)
  | regs v hv =>
    have hn : (BitVec.ofNat 8 (2 * v.length)).toNat = 2 * v.length := Nat.mod_eq_of_lt (by omega)
    have hread : unpackRegs v.length (packRegs v) = v := by simpa using unpackRegs_packRegs v []
    refine (decodePdu_readHoldingRegisters _ (packRegs v)).trans ?_
    rw [hn, packRegs_length, if_pos ⟨rfl, Nat.mul_mod_right 2 _⟩, Nat.mul_div_cancel_left _ (by decide), hread]
  | write fc a v hfc =>
    refine (decodePdu_write hfc (be16 a ++ be16 v)).trans ?_
    simp [rdBE16_be16_nil]

/-- A PDU whose function code has bit 7 set is an exception response or Invalid (R176). -/
theorem responseLayout_exception {b : Byte} (h7 : b.getLsbD 7 = true) (p : List Byte) :
    decodePdu (b :: p) = .invalid ∨ ResponseLayout (b :: p) (decodePdu (b :: p)) := by
  rw [decodePdu_exception h7]
  split
  · rename_i hl
    obtain ⟨code, rfl⟩ := List.length_eq_one_iff.mp hl
    exact .inr (.exc b code h7)
  · exact .inl rfl

/-- R177. -/
theorem responseLayout_readCoils (p : List Byte) :
    decodePdu (0x01 :: p) = .invalid ∨ ResponseLayout (0x01 :: p) (decodePdu (0x01 :: p)) := by
  cases p with
  | nil => exact .inl decodePdu_readCoils_nil
  | cons n d =>
    rw [decodePdu_readCoils]
    split
    · rename_i hl
      have hn : n = BitVec.ofNat 8 d.length := by rw [hl, BitVec.ofNat_toNat, BitVec.setWidth_eq]
      rw [hn]
      exact .inr (.coilBytes d (hl ▸ n.isLt))
    · exact .inl rfl

/-- R178. -/
theorem responseLayout_readHoldingRegisters (p : List Byte) :
    decodePdu (0x03 :: p) = .invalid ∨ ResponseLayout (0x03 :: p) (decodePdu (0x03 :: p)) := by
  cases p with
  | nil => exact .inl decodePdu_readHoldingRegisters_nil
  | cons n d =>
    rw [decodePdu_readHoldingRegisters]
    split
    · rename_i h
      obtain ⟨hl, heven⟩ := h
      have hlen : (unpackRegs (n.toNat / 2) d).length = n.toNat / 2 := by simp [unpackRegs]
      have htwo : 2 * (n.toNat / 2) = n.toNat := by omega
      have hlayout := ResponseLayout.regs (unpackRegs (n.toNat / 2) d) (by have := n.isLt; omega)
      rw [hlen, htwo, BitVec.ofNat_toNat, BitVec.setWidth_eq, packRegs_unpackRegs (hl.trans htwo.symm)] at hlayout
      exact .inr hlayout
    · exact .inl rfl

/-- R179 to R181. -/
theorem responseLayout_write {fc : Byte} (hfc : IsWriteCode fc) (p : List Byte) :
    decodePdu (fc :: p) = .invalid ∨ ResponseLayout (fc :: p) (decodePdu (fc :: p)) := by
  rw [decodePdu_write hfc]
  split
  · rename_i hl
    have hlayout := ResponseLayout.write fc (rdBE16 p 0) (rdBE16 p 2) hfc
    rw [List.append_assoc, ← eq_be16_append_be16 hl] at hlayout
    exact .inr hlayout
  · exact .inl rfl

/-- What `decode_pdu` does not refuse is a response layout with its value (R175). -/
theorem responseLayout_decodePdu (p : List Byte) : decodePdu p = .invalid ∨ ResponseLayout p (decodePdu p) := by
  cases p with
  | nil => exact .inl rfl
  | cons fc p =>
    cases h7 : fc.getLsbD 7 with
    | true => exact responseLayout_exception h7 p
    | false =>
      by_cases hfc : fcInScope fc = true
      · rcases (fcInScope_iff fc).mp hfc with rfl | rfl | rfl | rfl | rfl
        · exact responseLayout_readCoils p
        · exact responseLayout_readHoldingRegisters p
        · exact responseLayout_write (.inl rfl) p
        · exact responseLayout_write (.inr (.inl rfl)) p
        · exact responseLayout_write (.inr (.inr rfl)) p
      · exact .inl (decodePdu_unrecognised h7 (Bool.eq_false_iff.mpr hfc) p)

theorem decodePdu_eq_iff {p : List Byte} {d : DecodedPdu} (hd : d ≠ .invalid) :
    decodePdu p = d ↔ ResponseLayout p d := by
  refine ⟨?_, decodePdu_of_responseLayout⟩
  rintro rfl
  exact (responseLayout_decodePdu p).resolve_left hd

theorem decodePdu_eq_coilBytes {p d : List Byte} (hd : d.length < 256) :
    decodePdu p = .coilBytes d ↔ p = [0x01, BitVec.ofNat 8 d.length] ++ d := by
  refine (decodePdu_eq_iff (d := .coilBytes d) nofun).trans ⟨fun h => ?_, ?_⟩
  · cases h; rfl
  · rintro rfl; exact .coilBytes d hd

theorem decodePdu_eq_regs {p : List Byte} {v : List Word16} (hv : v.length < 128) :
    decodePdu p = .regs v ↔ p = [0x03, BitVec.ofNat 8 (2 * v.length)] ++ packRegs v := by
  refine (decodePdu_eq_iff (d := .regs v) nofun).trans ⟨fun h => ?_, ?_⟩
  · cases h; rfl
  · rintro rfl; exact .regs v hv

theorem decodePdu_eq_wr {p : List Byte} {fc : Byte} {a v : Word16} (hfc : IsWriteCode fc) :
    decodePdu p = .wr fc a v ↔ p = [fc] ++ be16 a ++ be16 v := by
  refine (decodePdu_eq_iff (d := .wr fc a v) nofun).trans ⟨fun h => ?_, ?_⟩
  · cases h; rfl
  · rintro rfl; exact .write fc a v hfc

/-- Bit 7 marks an exception response; the other seven bits are the function code it answers (R111). -/
theorem and_or_bit7 {b : Byte} (h7 : b.getLsbD 7 = true) : b &&& 0x7F ||| 0x80 = b :=
  calc b &&& 0x7F ||| 0x80 = b &&& 0x7F ||| b &&& 0x80 := by rw [Laws.bit7_and b h7]
    _ = b &&& 0xFF := (BitVec.and_or_distrib_left).symm
    _ = b := BitVec.and_allOnes

theorem decodePdu_eq_exc {p : List Byte} {fc code : Byte} (hfc : fcInScope fc = true) :
    decodePdu p = .exc fc code ↔ p = [fc ||| 0x80, code] := by
  refine (decodePdu_eq_iff (d := .exc fc code) nofun).trans ⟨fun h => ?_, ?_⟩
  · cases h with
    | exc b code h7 => rw [and_or_bit7 h7]
  · rintro rfl
    rcases (fcInScope_iff fc).mp hfc with rfl | rfl | rfl | rfl | rfl
    all_goals exact .exc _ code rfl

/-! ### The match (R182 to R187) -/

theorem matchCheck_of_ne {r : Req} {u : Byte} (h : u ≠ r.unit) (p : List Byte) : matchCheck r u p = .invalid :=
  if_neg h

theorem matchCheck_eq_iff {r : Req} {u : Byte} {p : List Byte} {m : MatchResult} (hm : m ≠ .invalid) :
    matchCheck r u p = m ↔ u = r.unit ∧ checkDecoded r (decodePdu p) = m := by
  unfold matchCheck
  split
  · rename_i hu
    exact (and_iff_right hu).symm
  · rename_i hu
    exact ⟨fun h => absurd h.symm hm, fun h => absurd h.1 hu⟩

/-- R182, R184 to R188: which value matches a request, and the body it gives. -/
theorem checkDecoded_eq_good {r : Req} {d : DecodedPdu} {body : Body} :
    checkDecoded r d = .good body ↔
      (r.fc = 0x01 ∧ ∃ e : List Byte, e.length = coilByteCount r.qty.toNat ∧ d = .coilBytes e ∧
        body = .coils (unpackCoils r.qty.toNat e)) ∨
      (r.fc = 0x03 ∧ ∃ v : List Word16, v.length = r.qty.toNat ∧ d = .regs v ∧ body = .registers v) ∨
      (r.fc = 0x06 ∧ d = .wr 0x06 r.addr (r.regs.getD 0 0) ∧ body = .ack r.addr (r.regs.getD 0 0)) ∨
      (r.fc = 0x0F ∧ d = .wr 0x0F r.addr r.qty ∧ body = .ack r.addr r.qty) ∨
      (r.fc = 0x10 ∧ d = .wr 0x10 r.addr r.qty ∧ body = .ack r.addr r.qty) := by
  constructor
  · intro h
    cases d with
    | invalid => cases h
    | exc fc code => simp only [checkDecoded, checkException] at h; split at h <;> cases h
    | coilBytes e =>
      simp only [checkDecoded, checkReadCoils] at h
      split_ifs at h with hfc hl
      cases h
      exact .inl ⟨hfc, e, hl, rfl, rfl⟩
    | regs v =>
      simp only [checkDecoded, checkReadHoldingRegisters] at h
      split_ifs at h with hfc hl
      cases h
      exact .inr (.inl ⟨hfc, v, hl, rfl, rfl⟩)
    | wr fc a v =>
      simp only [checkDecoded, checkWriteSingleRegister, checkWriteMultiple] at h
      split_ifs at h with hfc h06 hav h0F hav h10 hav
      all_goals
        cases h
        obtain ⟨rfl, rfl⟩ := hav
      · subst h06; exact .inr (.inr (.inl ⟨hfc, rfl, rfl⟩))
      · subst h0F; exact .inr (.inr (.inr (.inl ⟨hfc, rfl, rfl⟩)))
      · subst h10; exact .inr (.inr (.inr (.inr ⟨hfc, rfl, rfl⟩)))
  · rintro (⟨hfc, e, hl, rfl, rfl⟩ | ⟨hfc, v, hl, rfl, rfl⟩ | ⟨hfc, rfl, rfl⟩ | ⟨hfc, rfl, rfl⟩ | ⟨hfc, rfl, rfl⟩)
    · simp [checkDecoded, checkReadCoils, hfc, hl]
    · simp [checkDecoded, checkReadHoldingRegisters, hfc, hl]
    · simp [checkDecoded, checkWriteSingleRegister, hfc]
    · simp [checkDecoded, checkWriteMultiple, hfc]
    · simp [checkDecoded, checkWriteMultiple, hfc]

/-- R183: only an exception response for the request's function code gives its code. -/
theorem checkDecoded_eq_exc {r : Req} {d : DecodedPdu} {code : Byte} :
    checkDecoded r d = .exc code ↔ d = .exc r.fc code := by
  refine ⟨fun h => ?_, ?_⟩
  · cases d with
    | invalid => cases h
    | exc fc c =>
      simp only [checkDecoded, checkException] at h
      split_ifs at h with hfc
      cases h
      rw [hfc]
    | coilBytes e => simp only [checkDecoded, checkReadCoils] at h; split_ifs at h
    | regs v => simp only [checkDecoded, checkReadHoldingRegisters] at h; split_ifs at h
    | wr fc a v => simp only [checkDecoded, checkWriteSingleRegister, checkWriteMultiple] at h; split_ifs at h
  · rintro rfl
    exact if_pos rfl

theorem ValidRequest.fcInScope {r : Req} (h : ValidRequest r) : fcInScope r.fc = true := by
  cases h <;> rfl

theorem ValidRequest.coilByteCount_lt {r : Req} (h : ValidRequest r) (hfc : r.fc = 0x01) :
    coilByteCount r.qty.toNat < 256 := by
  cases h with
  | readCoils u a q hr => exact Nat.lt_of_le_of_lt (coilByteCount_le ((rangeOk_iff ..).mp hr).2.1) (by decide)
  | _ => simp at hfc

theorem ValidRequest.regQty_lt {r : Req} (h : ValidRequest r) (hfc : r.fc = 0x03) : r.qty.toNat < 128 := by
  cases h with
  | readHoldingRegisters u a q hr => exact Nat.lt_of_le_of_lt ((rangeOk_iff ..).mp hr).2.1 (by decide)
  | _ => simp at hfc

/-- Settles O18: each value that matches is the decoding of one layout, whose byte count does not wrap for a valid
request. -/
theorem matchAccepts : Obligations.MatchAccepts := by
  intro r c u p body hv
  have h := validRequest_of_validate hv
  rw [matchCheck_eq_iff (m := .good body) nofun, checkDecoded_eq_good]
  refine and_congr_right' (or_congr ?_ (or_congr ?_ (or_congr ?_ (or_congr ?_ ?_))))
  · refine and_congr_right fun hfc => exists_congr fun d => and_congr_right fun hl => ?_
    rw [decodePdu_eq_coilBytes (hl ▸ h.coilByteCount_lt hfc)]
    rfl
  · refine and_congr_right fun hfc => exists_congr fun v => and_congr_right fun hl => ?_
    rw [decodePdu_eq_regs (hl ▸ h.regQty_lt hfc)]
  · rw [decodePdu_eq_wr (.inl rfl)]
  · rw [decodePdu_eq_wr (.inr (.inl rfl))]
  · rw [decodePdu_eq_wr (.inr (.inr rfl))]

/-- Settles O19: an exception response carries the request's function code with bit 7 set. -/
theorem matchException : Obligations.MatchException := by
  intro r c u p code b hv
  have h := validRequest_of_validate hv
  refine ⟨?_, fun h7 hne => ?_, fun hu => matchCheck_of_ne hu p⟩
  · rw [matchCheck_eq_iff (m := .exc code) nofun, checkDecoded_eq_exc, decodePdu_eq_exc h.fcInScope]
  · have hdec : decodePdu [b, code] = .exc (b &&& 0x7F) code := decodePdu_of_responseLayout (.exc b code h7)
    have hcheck : checkDecoded r (decodePdu [b, code]) = .invalid := by rw [hdec]; exact if_neg hne
    unfold matchCheck
    rw [hcheck, ite_self]

end Sys2Proof.Machine
end

section
/-! SUPPORT. The frames that the framers slice off, decoded (42_decode R171, R172, R190; 43_reassembly R207). -/

namespace Sys2Proof.Machine

theorem headerOk_protocol {f : List Byte} (h : headerOk f = true) : rdBE16 f 2 = 0 := by
  simp only [headerOk, Bool.and_eq_true, beq_iff_eq] at h
  exact h.1.1

/-- An acceptable header before exactly its declared length (R172, R207). -/
theorem decodeTcp_of_headerOk {f : List Byte} (hh : headerOk f = true) (hl : f.length = 6 + (rdBE16 f 4).toNat) :
    decodeTcp f = .ok ⟨some (rdBE16 f 0), byteAt f 6, f.drop 7⟩ := by
  have h2 := headerOk_length hh
  have hslice : sliceBytes f 7 (6 + (rdBE16 f 4).toNat) = f.drop 7 :=
    List.take_of_length_le (by rw [List.length_drop]; omega)
  rw [decodeTcp, hslice, if_neg (by omega), if_neg (not_or.mpr ⟨not_not.mpr (headerOk_protocol hh), by omega⟩),
    if_neg (by omega), if_neg (by omega)]

theorem decodeTcp_badHeader {f : List Byte} (hl : 6 ≤ f.length) (hbad : rdBE16 f 2 ≠ 0 ∨ (rdBE16 f 4).toNat < 2) :
    decodeTcp f = .error .malformedLength := by
  rw [decodeTcp, if_neg (by omega), if_pos hbad]

theorem decodeRtu_of_crcOk {f : List Byte} (hl : 4 ≤ f.length) (hc : crcOk f = true) :
    decodeRtu f = .ok ⟨none, byteAt f 0, (f.drop 1).take (f.length - 3)⟩ := by
  rw [decodeRtu, if_neg (by omega), if_pos hc, sliceBytes, Nat.sub_sub]

theorem decodeRtu_badCrc {f : List Byte} (hl : 4 ≤ f.length) (hc : crcOk f = false) :
    decodeRtu f = .error .checksumMismatch := by
  rw [decodeRtu, if_neg (by omega), if_neg (Bool.eq_false_iff.mp hc)]

/-- Settles O20: one lemma for each outcome of each envelope. -/
theorem framersAgree : Obligations.FramersAgree := fun _ =>
  ⟨decodeTcp_of_headerOk, decodeTcp_badHeader, decodeRtu_of_crcOk, decodeRtu_badCrc⟩

end Sys2Proof.Machine
end

section
/-! SUPPORT. A failed attempt as one update of the state: it ends with its RESULT, its retry waits, re-opens the session or
is sent at once (45_engine R261, R262). -/

namespace Sys2Proof.Machine

theorem Ctx.hasRetry_iff {c : Ctx} : c.hasRetry = true ↔ c.attempt < c.cfg.maxRetries := decide_eq_true_iff

theorem Ctx.retriesNow_iff {c : Ctx} : c.retriesNow = true ↔ c.hasRetry = true ∧ c.cfg.retryBackoffMs = 0 := by
  simp [Ctx.retriesNow]

theorem failedResult_of_hasRetry (err : Status) {c : Ctx} (h : c.hasRetry = true) : failedResult err c = none :=
  if_pos h

theorem failedCtx_of_not_hasRetry (err : Status) (p : Phase) {c : Ctx} (h : c.hasRetry = false) :
    failedCtx err p c = endedCtx err c := if_neg (Bool.eq_false_iff.mp h)

/-- A failure destroys the transaction, if there is one (R236, R262). -/
theorem failedCtx_of_hasRetry (err : Status) (p : Phase) {c : Ctx} (h : c.hasRetry = true)
    (hx : c.txn = .none ∨ c.txn = .pending) :
    failedCtx err p c = { retriedCtx err c with phase := if c.cfg.retryBackoffMs = 0 then p else .backoff } := by
  rcases hx with hx | hx <;> simp [failedCtx, h, retriedCtx, hx]

/-- An update that leaves the context it meets as it was changes nothing. -/
theorem State.modCtx_of_fixed {s : State} {i : Nat} {f : Ctx → Ctx} (h : f (s.ctx i) = s.ctx i) : s.modCtx i f = s := by
  rw [State.modCtx_congr s i f id h, State.modCtx, List.modify_id]

section
variable {s : State} {i : Nat} {err : Status}

/-- The failure of an attempt whose retry, if it is not backed off, rests in phase p (R262). -/
theorem attemptFail_waits (he : retryable err = true) (hi : i < s.ctxs.length)
    (hx : (s.ctx i).txn = .none ∨ (s.ctx i).txn = .pending) {p : Phase}
    (hw : (s.ctx i).retriesNow = true → ∀ u : State, u.kind = s.kind → u.link = s.link → u.rxDiscard = s.rxDiscard →
      sendAttempt i u = u.modCtx i fun c => { c with phase := p, timer := 0 }) :
    attemptFail i err s =
      { s with out := s.out ++ (failedResult err (s.ctx i)).toList, ctxs := s.ctxs.modify i (failedCtx err p) } := by
  cases hr : (s.ctx i).hasRetry with
  | false =>
    have hno : ¬ (s.ctx i).attempt < (s.ctx i).cfg.maxRetries := fun h => by simp [Ctx.hasRetry, h] at hr
    calc attemptFail i err s
        = (s.emit (plainResult (s.ctx i).handle err 0)).modCtx i (endedCtx err) :=
          attemptFail_end i err s hi fun h => hno h.2
      _ = (s.emit (plainResult (s.ctx i).handle err 0)).modCtx i (failedCtx err p) :=
          State.modCtx_congr _ _ _ _ (failedCtx_of_not_hasRetry err p hr).symm
      _ = _ := by simp [State.modCtx, State.emit, failedResult, hr]
  | true =>
    have hretry := And.intro he (Ctx.hasRetry_iff.mp hr)
    have hres := failedResult_of_hasRetry err hr
    have hctx := failedCtx_of_hasRetry err p hr hx
    have heq : attemptFail i err s = s.modCtx i (failedCtx err p) := by
      by_cases hb : (s.ctx i).cfg.retryBackoffMs = 0
      · rw [attemptFail_resend i err s hi hretry hb,
          hw (Ctx.retriesNow_iff.mpr ⟨hr, hb⟩) (s.modCtx i (retriedCtx err)) rfl rfl rfl, State.modCtx_modCtx]
        exact State.modCtx_congr _ _ _ _ (by rw [hctx, if_pos hb]; rfl)
      · rw [attemptFail_backoff i err s hi hretry hb]
        exact State.modCtx_congr _ _ _ _ (by rw [hctx, if_neg hb]; rfl)
    rw [heq, hres]
    simp [State.modCtx]

/-- The failure of an attempt whose retry is sent at once on an open RTU line (R261, R262). -/
theorem attemptFail_resends_rtu (he : retryable err = true) (hi : i < s.ctxs.length)
    (hn : (s.ctx i).retriesNow = true) (hk : s.kind = .rtu) (hu : s.link = .up) (hd : s.rxDiscard = false) :
    attemptFail i err s =
      { s with
        rxlen := 0
        out := s.out ++ [.txFrame (encodeFrame (s.ctx i).req .rtu 0)]
        ctxs := s.ctxs.modify i (resentCtx err 0) } := by
  obtain ⟨hr, hb⟩ := Ctx.retriesNow_iff.mp hn
  have hc : (s.modCtx i (retriedCtx err)).ctx i = retriedCtx err (s.ctx i) := State.ctx_modCtx_same s i _ hi
  rw [attemptFail_resend i err s hi ⟨he, Ctx.hasRetry_iff.mp hr⟩ hb,
    sendAttempt_rtu i (s.modCtx i (retriedCtx err)) hu hk hd (by simpa using hi), hc]
  simp only [State.modCtx, List.modify_modify_eq]
  rfl

/-- The failure of an attempt whose retry re-opens a closed session (R261, R262). -/
theorem attemptFail_reopens (he : retryable err = true) (hi : i < s.ctxs.length)
    (hx : (s.ctx i).txn = .none ∨ (s.ctx i).txn = .pending) (hn : (s.ctx i).retriesNow = true) (hl : s.link = .down) :
    attemptFail i err s =
      { s with
        link := .opening
        out := s.out ++ [.reqOpen]
        ctxs := s.ctxs.modify i (failedCtx err .linkWait) } := by
  obtain ⟨hr, hb⟩ := Ctx.retriesNow_iff.mp hn
  have hctx : (s.ctxs.modify i (retriedCtx err)).modify i (fun c => { c with phase := .linkWait, timer := 0 }) =
      s.ctxs.modify i (failedCtx err .linkWait) := by
    have := State.modCtx_congr s i (fun c => { retriedCtx err c with phase := .linkWait, timer := 0 })
      (failedCtx err .linkWait) (by rw [failedCtx_of_hasRetry err _ hr hx, if_pos hb]; rfl)
    rw [List.modify_modify_eq]
    exact congrArg State.ctxs this
  rw [attemptFail_resend i err s hi ⟨he, Ctx.hasRetry_iff.mp hr⟩ hb,
    sendAttempt_down i (s.modCtx i (retriedCtx err)) hl]
  exact congrArg (fun cs => { s with link := Link.opening, out := s.out ++ [Output.reqOpen], ctxs := cs }) hctx

/-- What a context's turn emits when the session stands at l and the context re-opens it or emits its result, if any
(R261): REQ_OPEN only to a closed session. -/
def turnOutput (reopens : Ctx → Bool) (result : Ctx → Option Output) (l : Link) (c : Ctx) : List Output :=
  if reopens c = true then (if l = .down then [.reqOpen] else []) else (result c).toList

/-- The failure of an attempt while the session is not open (R261, R262). -/
theorem attemptFail_not_up (he : retryable err = true) (hi : i < s.ctxs.length)
    (hx : (s.ctx i).txn = .none ∨ (s.ctx i).txn = .pending) (hl : s.link ≠ .up) :
    attemptFail i err s =
      { s with
        link := if (s.ctx i).retriesNow = true then .opening else s.link
        out := s.out ++ turnOutput Ctx.retriesNow (failedResult err) s.link (s.ctx i)
        ctxs := s.ctxs.modify i (failedCtx err .linkWait) } := by
  cases hn : (s.ctx i).retriesNow with
  | false =>
    rw [attemptFail_waits he hi hx (p := .linkWait) fun h => absurd (hn.symm.trans h) nofun]
    simp [turnOutput, hn]
  | true =>
    cases hlink : s.link with
    | up => exact absurd hlink hl
    | down =>
      rw [attemptFail_reopens he hi hx hn hlink]
      simp [turnOutput, hn]
    | opening =>
      rw [attemptFail_waits he hi hx fun _ u _ hu _ => sendAttempt_opening i u (hu.trans hlink),
        failedResult_of_hasRetry err (Ctx.retriesNow_iff.mp hn).1]
      simp [turnOutput, hn, hlink]

end

end Sys2Proof.Machine
end

section
/-! SUPPORT. A loop over the contexts of a closed session, which some contexts re-open in their turn (00_scope R20;
45_engine R261; 60_exceptions R309). -/

namespace Sys2Proof.Machine

section
variable {reopens : Ctx → Bool} {result : Ctx → Option Output}

/-- The link after the turns of some contexts of a closed session. -/
def turnLink (reopens : Ctx → Bool) (l : List Ctx) : Link := if l.any reopens = true then .opening else .down

theorem turnLink_ne_up (l : List Ctx) : turnLink reopens l ≠ .up := by
  unfold turnLink
  split <;> exact nofun

theorem turnLink_concat (l : List Ctx) (c : Ctx) :
    turnLink reopens (l ++ [c]) = if reopens c = true then .opening else turnLink reopens l := by
  cases h : reopens c <;> simp [turnLink, h]

/-- One more turn adds what it emits: REQ_OPEN stands at the first turn that re-opens the session, and at no other. -/
theorem turnOutputs_concat (hr : ∀ c, reopens c = true → result c = none) (l : List Ctx) (c : Ctx) :
    turnOutputs reopens result (l ++ [c]) =
      turnOutputs reopens result l ++ turnOutput reopens result (turnLink reopens l) c := by
  induction l with
  | nil => simp [turnOutputs, turnOutput, turnLink]
  | cons d l ih =>
    cases hd : reopens d with
    | false =>
      have hlink : turnLink reopens (d :: l) = turnLink reopens l := by simp [turnLink, hd]
      simp [turnOutputs, hd, hlink, ih]
    | true =>
      have hlink : turnLink reopens (d :: l) = .opening := by simp [turnLink, hd]
      have hout : turnOutput reopens result .opening c = (result c).toList := by
        cases hc : reopens c with
        | false => simp [turnOutput, hc]
        | true => simp [turnOutput, hc, hr c hc]
      cases hc : result c <;> simp [turnOutputs, hd, hlink, hout, hc]

/-- The state after the turns of the first k contexts of s, in which the session is closed. -/
def State.turned (reopens : Ctx → Bool) (result : Ctx → Option Output) (g : Ctx → Ctx) (s : State) (k : Nat) : State :=
  { s with
    link := turnLink reopens (s.ctxs.take k)
    out := s.out ++ turnOutputs reopens result (s.ctxs.take k)
    ctxs := (s.ctxs.take k).map g ++ s.ctxs.drop k }

theorem take_succ_ctx {s : State} {k : Nat} (hk : k < s.ctxs.length) :
    s.ctxs.take (k + 1) = s.ctxs.take k ++ [s.ctx k] := by
  rw [List.take_add_one, State.getElem?_ctx hk, Option.toList_some]

theorem drop_eq_ctx_cons {s : State} {k : Nat} (hk : k < s.ctxs.length) :
    s.ctxs.drop k = s.ctx k :: s.ctxs.drop (k + 1) := by
  rw [List.drop_eq_getElem_cons hk, ← State.ctx_eq_of_getElem? (List.getElem?_eq_getElem hk)]

theorem State.turned_length (g : Ctx → Ctx) (s : State) (k : Nat) :
    (s.turned reopens result g k).ctxs.length = s.ctxs.length := by
  simp only [State.turned, List.length_append, List.length_map, List.length_take, List.length_drop]
  omega

theorem State.turned_ctx (g : Ctx → Ctx) {s : State} {k : Nat} (hk : k < s.ctxs.length) :
    (s.turned reopens result g k).ctx k = s.ctx k := by
  have hlen : ((s.ctxs.take k).map g).length = k := by simp [Nat.le_of_lt hk]
  refine State.ctx_eq_of_getElem? ?_
  simp only [State.turned, drop_eq_ctx_cons hk]
  rw [List.getElem?_append_right hlen.le, hlen, Nat.sub_self]
  rfl

/-- The next context's turn. -/
theorem State.turned_succ (hr : ∀ c, reopens c = true → result c = none) (g : Ctx → Ctx) {s : State} {k : Nat}
    (hk : k < s.ctxs.length) {t : State} (ht : t = s.turned reopens result g k) :
    s.turned reopens result g (k + 1) =
      { t with
        link := if reopens (s.ctx k) = true then .opening else t.link
        out := t.out ++ turnOutput reopens result t.link (s.ctx k)
        ctxs := t.ctxs.modify k g } := by
  have hlen : ((s.ctxs.take k).map g).length = k := by simp [Nat.le_of_lt hk]
  have hctxs : ((s.ctxs.take k).map g ++ s.ctxs.drop k).modify k g =
      (s.ctxs.take (k + 1)).map g ++ s.ctxs.drop (k + 1) := by
    rw [List.modify_eq_take_drop, List.take_left' hlen, List.drop_left' hlen, drop_eq_ctx_cons hk, take_succ_ctx hk,
      List.map_append, List.append_assoc]
    rfl
  subst ht
  simp only [State.turned, hctxs, take_succ_ctx hk, turnLink_concat, turnOutputs_concat hr, List.append_assoc]

/-- A loop in which each turn lets its context re-open the session or emit its result makes the turns one after another:
the session is re-opened once, if at all (R20, R309). -/
theorem State.forCtx_of_closed {f : Nat → State → State} {g : Ctx → Ctx}
    (hr : ∀ c, reopens c = true → result c = none) {s : State} (hl : s.link = .down)
    (hf : ∀ i t, i < s.ctxs.length → t.ctxs.length = s.ctxs.length → t.ctx i = s.ctx i → t.link ≠ .up →
      f i t = { t with
        link := if reopens (s.ctx i) = true then .opening else t.link
        out := t.out ++ turnOutput reopens result t.link (s.ctx i)
        ctxs := t.ctxs.modify i g }) :
    s.forCtx f =
      { s with
        link := if s.ctxs.any reopens = true then .opening else .down
        out := s.out ++ turnOutputs reopens result s.ctxs
        ctxs := s.ctxs.map g } := by
  have hall := State.forCtx_index (fun k t => t = s.turned reopens result g k) f s
    (by simp [State.turned, turnLink, turnOutputs, ← hl])
    (fun i t hi ht => by
      rw [State.turned_succ hr g hi ht]
      subst ht
      exact hf i _ hi (State.turned_length g s i) (State.turned_ctx g hi) (turnLink_ne_up _))
  rw [hall]
  simp [State.turned, turnLink]

end

end Sys2Proof.Machine
end

section
/-! SUPPORT. A byte on an open TCP session: collected, or the end of the session (43_reassembly R205 to R208, R220). -/

namespace Sys2Proof.Machine

theorem State.Inv.legal {s : State} (hs : s.Inv) : s.legal = true := hs.1

theorem State.Inv.rxbuf_wf {s : State} (hs : s.Inv) : s.rxbuf.wf = true := hs.receive.1

theorem State.begin_bufAppend_bufBytes {s : State} {b : Byte} (hwf : s.rxbuf.wf = true) :
    (s.begin.bufAppend b).bufBytes = s.received b := State.bufAppend_bufBytes b s.begin hwf

/-! ### The framer's branches (R206 to R208) -/

section
variable {s : State} {b : Byte}

theorem exec_evRxByte_tcp (hl : s.legal = true) (hk : s.kind = .tcp) (hu : s.link = .up)
    (hcap : s.rxlen < Config.rxbufCap) :
    exec (.evRxByte b) s = .next (tcpCheck (s.begin.bufAppend b)) := by
  have hrx : onRxByte b s.begin = tcpRxByte b s.begin := by
    rw [onRxByte, if_pos (show s.begin.link = .up from hu), State.begin_kind, hk]
  calc exec (.evRxByte b) s = .next (onRxByte b s.begin) := execEvRxByte_next hl (.inr (.inr hcap))
    _ = _ := by rw [hrx]; rfl

theorem tcpCheck_more (h : s.rxlen < 6 ∨ (s.rxlen = 6 ∧ headerOk s.bufBytes = true) ∨
    (6 < s.rxlen ∧ s.rxlen ≠ 6 + (rdBE16 s.bufBytes 4).toNat)) : tcpCheck s = s := by
  have hbad : ¬ (s.rxlen = 6 ∧ headerOk s.bufBytes = false) := by
    rintro ⟨h6, hh⟩
    rcases h with h | ⟨-, h⟩ | h
    · omega
    · exact absurd (h.symm.trans hh) nofun
    · omega
  have hdone : ¬ (s.rxlen ≥ 6 ∧ s.rxlen = 6 + (rdBE16 s.bufBytes 4).toNat) := by
    rintro ⟨h6, hlen⟩
    rcases h with h | ⟨h, hh⟩ | h
    · omega
    · have := headerOk_length hh
      omega
    · exact h.2 hlen
  rw [tcpCheck, if_neg hbad, if_neg hdone]

theorem tcpCheck_badHeader (h : s.rxlen = 6 ∧ headerOk s.bufBytes = false) :
    tcpCheck s = tcpAbort (rdBE16 s.bufBytes 0) s := if_pos h

theorem tcpCheck_complete (h6 : 6 < s.rxlen) (h : s.rxlen = 6 + (rdBE16 s.bufBytes 4).toNat) :
    tcpCheck s = tcpDeliver s.bufBytes s.bufClear := by
  rw [tcpCheck, if_neg (by omega), if_pos ⟨by omega, h⟩]

/-- Under the invariants an awaiting context is the one its id is looked up to (R234, R47). -/
theorem State.Inv.lookup_awaiting (hs : s.Inv) (hk : s.kind = .tcp) {i : Nat} (hi : i < s.ctxs.length)
    (hp : (s.ctx i).phase = .awaitingResponse) : s.lookup (s.ctx i).tid = some i := by
  have pending : ∀ {j}, j < s.ctxs.length → (s.ctx j).phase = .awaitingResponse → (s.ctx j).txn = .pending :=
    fun hj hpj => (hs.invBut.own _ hj (by simp)).txn.2.mpr hpj
  refine (State.lookup_some s _ i).mpr ⟨hi, by simp [hp, pending hi hp], fun j hji => ?_⟩
  have hj : j < s.ctxs.length := Nat.lt_trans hji hi
  by_contra hfound
  simp only [Bool.not_eq_false, Bool.and_eq_true, beq_iff_eq] at hfound
  obtain ⟨⟨-, hxj⟩, htid⟩ := hfound
  exact (hs.invBut.apart j hj i hi (by simp) (by simp) (by omega)).1 ⟨hk, hxj, pending hi hp, htid⟩

theorem tcpDeliver_invalid {f : List Byte} {i : Nat} (hi : s.lookup (rdBE16 f 0) = some i)
    (hm : matchCheck (s.ctx i).req (byteAt f 6) (f.drop 7) = .invalid) :
    tcpDeliver f s = tcpAbort (rdBE16 f 0) s := by
  simp only [tcpDeliver, hi, hm]

end

/-! ### The abort (R220) -/

theorem tcpAbortCtx_of_awaiting (bad : Tid) {i : Nat} {s : State} (hp : (s.ctx i).phase = .awaitingResponse) :
    tcpAbortCtx bad i s = attemptFail i (abortStatus bad (s.ctx i)) s := by
  rw [tcpAbortCtx, if_pos hp, abortStatus]
  split <;> rfl

theorem retryable_abortStatus (bad : Tid) (c : Ctx) : retryable (abortStatus bad c) = true := by
  unfold abortStatus
  split <;> rfl

theorem abortResult_of_reopens (bad : Tid) (c : Ctx) (h : abortReopens c = true) : abortResult bad c = none := by
  simp only [abortReopens, Bool.and_eq_true] at h
  unfold abortResult
  split
  · exact failedResult_of_hasRetry _ (Ctx.retriesNow_iff.mp h.2).1
  · rfl

/-- One context's turn in an abort, which has closed the session (R220). -/
theorem tcpAbortCtx_eq (bad : Tid) {i : Nat} {s : State} (hi : i < s.ctxs.length)
    (hx : (s.ctx i).txn = .none ∨ (s.ctx i).txn = .pending) (hl : s.link ≠ .up) :
    tcpAbortCtx bad i s =
      { s with
        link := if abortReopens (s.ctx i) = true then .opening else s.link
        out := s.out ++ turnOutput abortReopens (abortResult bad) s.link (s.ctx i)
        ctxs := s.ctxs.modify i (abortCtx bad) } := by
  by_cases hp : (s.ctx i).phase = .awaitingResponse
  · have hctxs : s.ctxs.modify i (abortCtx bad) = s.ctxs.modify i (failedCtx (abortStatus bad (s.ctx i)) .linkWait) :=
      congrArg State.ctxs (State.modCtx_congr s i (abortCtx bad) (failedCtx _ .linkWait) (if_pos hp))
    rw [tcpAbortCtx_of_awaiting bad hp, attemptFail_not_up (retryable_abortStatus bad _) hi hx hl, hctxs]
    simp [turnOutput, abortReopens, abortResult, hp]
  · have hctxs : s.ctxs.modify i (abortCtx bad) = s.ctxs :=
      congrArg State.ctxs (State.modCtx_of_fixed (f := abortCtx bad) (if_neg hp))
    rw [tcpAbortCtx, if_neg hp, hctxs]
    simp [turnOutput, abortReopens, abortResult, hp]

/-- An abort closes the session, and every awaiting context fails in its turn (R220). -/
theorem tcpAbort_eq (bad : Tid) {s : State} (hx : ∀ i < s.ctxs.length, (s.ctx i).txn = .none ∨ (s.ctx i).txn = .pending) :
    tcpAbort bad s =
      { s with
        link := if s.ctxs.any abortReopens = true then .opening else .down
        rxlen := 0
        out := s.out ++ .reqClose :: turnOutputs abortReopens (abortResult bad) s.ctxs
        ctxs := s.ctxs.map (abortCtx bad) } := by
  have hloop := State.forCtx_of_closed (f := tcpAbortCtx bad) (g := abortCtx bad) (abortResult_of_reopens bad)
    (s := s.closed.bufClear) rfl fun i t hi hlen hc hl => by
      have hc : t.ctx i = s.ctx i := hc
      rw [tcpAbortCtx_eq bad (hlen.symm ▸ hi) (hc ▸ hx i hi) hl, hc]
      rfl
  calc tcpAbort bad s = s.closed.bufClear.forCtx (tcpAbortCtx bad) := rfl
    _ = _ := by rw [hloop]; simp [State.closed]

/-- A bad header and a frame that does not match the request its id answers lead to the same abort (R207, R208). -/
theorem tcpCheck_aborts {s : State} {b : Byte} (hs : s.Inv) (hk : s.kind = .tcp)
    (hbad : (s.rxlen + 1 = 6 ∧ headerOk (s.received b) = false) ∨
      (6 < s.rxlen + 1 ∧ s.rxlen + 1 = 6 + (rdBE16 (s.received b) 4).toNat ∧
        ∃ c ∈ s.ctxs, c.phase = .awaitingResponse ∧ c.tid = rdBE16 (s.received b) 0 ∧
          matchCheck c.req (byteAt (s.received b) 6) ((s.received b).drop 7) = .invalid)) :
    tcpCheck (s.begin.bufAppend b) = tcpAbort (rdBE16 (s.received b) 0) (s.begin.bufAppend b) := by
  have hbytes := State.begin_bufAppend_bufBytes (b := b) hs.rxbuf_wf
  rcases hbad with hhead | ⟨h6, hlen, c, hc, hp, htid, hm⟩
  · rw [tcpCheck_badHeader (by rw [hbytes]; exact hhead), hbytes]
  · obtain ⟨i, hi, rfl⟩ := State.exists_ctx_of_mem hc
    have hfound : (s.begin.bufAppend b).bufClear.lookup (rdBE16 (s.received b) 0) = some i :=
      htid ▸ hs.lookup_awaiting hk hi hp
    calc tcpCheck (s.begin.bufAppend b)
        = tcpDeliver (s.received b) (s.begin.bufAppend b).bufClear := by
          rw [tcpCheck_complete h6 (by rw [hbytes]; exact hlen), hbytes]
      _ = tcpAbort (rdBE16 (s.received b) 0) (s.begin.bufAppend b).bufClear := tcpDeliver_invalid hfound hm
      _ = tcpAbort (rdBE16 (s.received b) 0) (s.begin.bufAppend b) := rfl

/-! ### The statements -/

/-- Settles O28: a byte after which the framer waits is only appended. -/
theorem tcpByteCollected : Obligations.TcpByteCollected := by
  intro s b hl hwf hk hu hcap hmore
  have hbytes := State.begin_bufAppend_bufBytes (b := b) hwf
  have hcheck : tcpCheck (s.begin.bufAppend b) = s.begin.bufAppend b :=
    tcpCheck_more (by rw [hbytes]; exact hmore)
  refine ⟨s.begin.bufAppend b, ?_, rfl, rfl, Memory.read_write_same _ _ _ 0 hwf,
    fun a ha => Memory.read_write_other _ _ _ _ ha, hbytes, Memory.wf_write _ _ _ hwf⟩
  rw [exec_evRxByte_tcp hl hk hu hcap, hcheck]

end Sys2Proof.Machine

/-! In the namespace of the machine the name of the next theorem is the procedure's. -/

namespace Sys2Proof.Laws

open Sys2Proof.Machine

/-- Settles O31: the step is one abort, in which each context takes its turn. -/
theorem tcpAbort : Obligations.TcpAbort := by
  intro s b hs hk hu hcap hbad
  have habort := tcpAbort_eq (rdBE16 (s.received b) 0) (s := s.begin.bufAppend b)
    fun i hi => (hs.invBut.own i hi (by simp)).txn.1
  have hstep := exec_evRxByte_tcp (b := b) hs.legal hk hu hcap
  exact ⟨_, hstep.trans (congrArg _ ((tcpCheck_aborts hs hk hbad).trans habort)), rfl, rfl⟩

end Sys2Proof.Laws
end

section
/-! SUPPORT. The inferred length of an RTU frame by its function code (43_reassembly R212), and the frames that only a
silence ends (30_encoding R118). -/

namespace Sys2Proof.Machine

theorem getLsbD_seven_iff (b : Byte) : b.getLsbD 7 = true ↔ 0x80 ≤ b.toNat := by
  have hmsb : b.getLsbD 7 = b.msb := by simp [BitVec.msb_eq_getLsbD_last]
  rw [hmsb, BitVec.msb_eq_decide, decide_eq_true_iff]

section
variable {fc : Byte} (u : Byte) (rest : List Byte)

theorem rtuExpectedLen_exception (h7 : fc.getLsbD 7 = true) : rtuExpectedLen (u :: fc :: rest) = .bytes 5 := by
  simp [rtuExpectedLen, byteAt, h7]

theorem rtuExpectedLen_write (hfc : IsWriteCode fc) : rtuExpectedLen (u :: fc :: rest) = .bytes 8 := by
  rcases hfc with rfl | rfl | rfl <;> simp [rtuExpectedLen, byteAt]

theorem rtuExpectedLen_read_wait (hfc : fc = 0x01 ∨ fc = 0x03) : rtuExpectedLen [u, fc] = .wait := by
  rcases hfc with rfl | rfl <;> simp [rtuExpectedLen, byteAt]

theorem rtuExpectedLen_read (hfc : fc = 0x01 ∨ fc = 0x03) (n : Byte) :
    rtuExpectedLen (u :: fc :: n :: rest) = .bytes (5 + n.toNat) := by
  rcases hfc with rfl | rfl <;> simp [rtuExpectedLen, byteAt]

theorem rtuExpectedLen_unrecognised (h7 : fc.getLsbD 7 = false) (hw : ¬ IsWriteCode fc) (hr : ¬ (fc = 0x01 ∨ fc = 0x03)) :
    rtuExpectedLen (u :: fc :: rest) = .silence := by
  have hlen : ¬ (u :: fc :: rest).length < 2 := by simp
  have hfc : byteAt (u :: fc :: rest) 1 = fc := rfl
  unfold IsWriteCode at hw
  rw [rtuExpectedLen, hfc, if_neg hlen, h7, if_neg nofun, if_neg hw, if_neg hr]

end

/-- Settles O21: one lemma for each row of R212. -/
theorem rtuLengthInference : Obligations.RtuLengthInference := by
  intro f unit fc n rest
  refine ⟨fun h => if_pos h, fun h => rtuExpectedLen_exception unit rest ((getLsbD_seven_iff fc).mpr h),
    rtuExpectedLen_write unit rest, rtuExpectedLen_read_wait unit, fun h => rtuExpectedLen_read unit rest h n,
    fun h h06 h0F h10 h01 h03 => ?_⟩
  have h7 : fc.getLsbD 7 = false :=
    (Bool.not_eq_true _).mp fun h7 => Nat.not_le_of_lt h ((getLsbD_seven_iff fc).mp h7)
  exact rtuExpectedLen_unrecognised unit rest h7 (not_or.mpr ⟨h06, not_or.mpr ⟨h0F, h10⟩⟩) (not_or.mpr ⟨h01, h03⟩)

/-- Only a function code that is neither an exception's nor one of the five leaves the end to the silence. -/
theorem of_rtuExpectedLen_silence {f : List Byte} (e : rtuExpectedLen f = .silence) :
    (byteAt f 1).getLsbD 7 = false ∧ fcInScope (byteAt f 1) = false := by
  unfold rtuExpectedLen at e
  split_ifs at e with _ h7 hw hr
  refine ⟨(Bool.not_eq_true _).mp h7, Bool.eq_false_iff.mpr fun h => ?_⟩
  rcases (fcInScope_iff _).mp h with h | h | h | h | h
  · exact hr (.inl h)
  · exact hr (.inr h)
  · exact hw (.inl h)
  · exact hw (.inr (.inl h))
  · exact hw (.inr (.inr h))

/-- The PDU of a frame of at least 4 bytes begins with the function code. -/
theorem sliceBytes_pdu {f : List Byte} (h : 4 ≤ f.length) :
    ∃ p, sliceBytes f 1 (f.length - 2) = byteAt f 1 :: p := by
  match f, h with
  | u :: fc :: x :: y :: rest, _ => exact ⟨_, rfl⟩

/-- A frame that only a silence ends answers no request (R118, R182). -/
theorem matchCheck_of_silence {f : List Byte} (h : 4 ≤ f.length) (e : rtuExpectedLen f = .silence) (r : Req) (u : Byte) :
    matchCheck r u (sliceBytes f 1 (f.length - 2)) = .invalid := by
  obtain ⟨p, hp⟩ := sliceBytes_pdu h
  obtain ⟨h7, hfc⟩ := of_rtuExpectedLen_silence e
  unfold matchCheck
  split
  · rw [hp, decodePdu_unrecognised h7 hfc]
    rfl
  · rfl

end Sys2Proof.Machine
end

section
/-! SUPPORT. What the RTU line makes of the one context: a response, a stray frame, and a failure on a line that is quiet
or not (43_reassembly R211 to R221; 45_engine R261 to R264). -/

namespace Sys2Proof.Machine

section
variable {s : State}

theorem State.Hears.txn (h : s.Hears) : (s.ctx 0).txn = .none ∨ (s.ctx 0).txn = .pending :=
  (h.inv.invBut.own 0 h.sole (by simp)).txn.1

/-- What a step on an RTU line makes of a state besides its registers: the outputs l, and the one context c. -/
def State.soleTurn (l : List Output) (c : Ctx) (s : State) : State := { s with out := s.out ++ l, ctxs := [c] }

/-- An RTU table holds one context. -/
theorem State.Hears.soleTurn_eq (h : s.Hears) (u : State) (hu : u.ctxs = s.ctxs) (l : List Output) (g : Ctx → Ctx) :
    { u with out := u.out ++ l, ctxs := u.ctxs.modify 0 g } = u.soleTurn l (g (s.ctx 0)) := by
  have hc : s.bufClear.ctxs = [s.ctx 0] := State.legal_rtu h.inv.legal h.kind
  rw [hu.trans hc]
  rfl

theorem State.Hears.modCtx_eq (h : s.Hears) (u : State) (hu : u.ctxs = s.ctxs) (g : Ctx → Ctx) :
    u.modCtx 0 g = u.soleTurn [] (g (s.ctx 0)) := by
  rw [← h.soleTurn_eq u hu, List.append_nil]
  rfl

/-! ### A failure (R213, R221, R262) -/

/-- A failure on a line that is not quiet: a retry without backoff waits for the resync. -/
theorem attemptFail_of_noisy {err : Status} (he : retryable err = true) (h : s.Hears) (hq : s.lineQuiet = false) :
    attemptFail 0 err s.bufClear.startDiscard =
      s.bufClear.startDiscard.soleTurn (failedResult err (s.ctx 0)).toList (failedCtx err .resyncWait (s.ctx 0)) := by
  have hdiscard : s.bufClear.startDiscard.rxDiscard = true := by simp [hq]
  have hwait : ∀ u : State, u.kind = s.kind → u.link = s.link → u.rxDiscard = s.bufClear.startDiscard.rxDiscard →
      sendAttempt 0 u = u.modCtx 0 fun c => { c with phase := .resyncWait, timer := 0 } :=
    fun u hk hl hd => sendAttempt_resync 0 u (hl.trans h.up) (hk.trans h.kind) (hd.trans hdiscard)
  exact (attemptFail_waits (s := s.bufClear.startDiscard) he h.sole h.txn fun _ => hwait).trans
    (h.soleTurn_eq s.bufClear.startDiscard rfl _ _)

/-- What the failure of an attempt emits when a retry without backoff is sent at once (R262, R261). -/
def failedOpenOut (err : Status) (c : Ctx) : List Output :=
  if c.retriesNow = true then [.txFrame (encodeFrame c.req .rtu 0)] else (failedResult err c).toList

/-- A failure on a quiet line: no resync follows, so a retry without backoff is sent. -/
theorem attemptFail_of_quiet {err : Status} (he : retryable err = true) (h : s.Hears) (hq : s.lineQuiet = true) :
    attemptFail 0 err s.bufClear.startDiscard =
      s.bufClear.startDiscard.soleTurn (failedOpenOut err (s.ctx 0)) (failedOpenCtx err 0 (s.ctx 0)) := by
  have hdiscard : s.bufClear.startDiscard.rxDiscard = false := by simp [hq]
  cases hn : (s.ctx 0).retriesNow with
  | true =>
    have hout : failedOpenOut err (s.ctx 0) = [.txFrame (encodeFrame (s.ctx 0).req .rtu 0)] := if_pos hn
    have hctx : failedOpenCtx err 0 (s.ctx 0) = resentCtx err 0 (s.ctx 0) := if_pos hn
    rw [hout, hctx]
    exact (attemptFail_resends_rtu (s := s.bufClear.startDiscard) he h.sole hn h.kind h.up hdiscard).trans
      (h.soleTurn_eq s.bufClear.startDiscard rfl _ _)
  | false =>
    have hnot : ¬ (s.ctx 0).retriesNow = true := Bool.eq_false_iff.mp hn
    have hout : failedOpenOut err (s.ctx 0) = (failedResult err (s.ctx 0)).toList := if_neg hnot
    have hctx : failedOpenCtx err 0 (s.ctx 0) = failedCtx err .backoff (s.ctx 0) := if_neg hnot
    rw [hout, hctx]
    exact (attemptFail_waits (s := s.bufClear.startDiscard) he h.sole h.txn fun hr => absurd hr hnot).trans
      (h.soleTurn_eq s.bufClear.startDiscard rfl _ _)

/-! ### A drain that ends -/

/-- What ends a drain and touches no other context (R213, R221). -/
theorem release_of_draining (h : s.Hears) (u : State) (hu : u.ctxs = s.ctxs) (hp : (s.ctx 0).phase = .draining) :
    release 0 u = u.soleTurn [] (strayCtx (s.ctx 0)) := by
  rw [release_eq, h.modCtx_eq u hu, strayCtx, if_pos hp]

theorem soleTurn_of_not_draining (h : s.Hears) (u : State) (hu : u.ctxs = s.ctxs) (hp : (s.ctx 0).phase ≠ .draining) :
    u = u.soleTurn [] (strayCtx (s.ctx 0)) := by
  rw [strayCtx, if_neg hp, ← h.modCtx_eq u hu (fun c => c)]
  exact (State.modCtx_of_fixed rfl).symm

theorem rtuErr_of_awaiting (err : Status) (hp : (s.ctx 0).phase = .awaitingResponse) :
    rtuErr err s = attemptFail 0 err s.bufClear.startDiscard := by
  have hp : (s.bufClear.startDiscard.ctx 0).phase = .awaitingResponse := hp
  simp only [rtuErr, hp]

/-- `rtu_err!` without an awaited attempt (R221). -/
theorem rtuErr_of_not_awaiting (err : Status) (h : s.Hears) (hp : (s.ctx 0).phase ≠ .awaitingResponse) :
    rtuErr err s = s.bufClear.startDiscard.soleTurn [] (strayCtx (s.ctx 0)) := by
  unfold rtuErr
  extract_lets u
  have hctx : u.ctx 0 = s.ctx 0 := rfl
  split
  · rename_i ha
    exact absurd (hctx ▸ ha) hp
  · rename_i hd
    exact release_of_draining h u rfl (hctx ▸ hd)
  all_goals
    rename_i ho
    exact soleTurn_of_not_draining h u rfl (by rw [← hctx, ho]; exact nofun)

theorem rtuFrame_of_awaiting (f : List Byte) (hp : (s.ctx 0).phase = .awaitingResponse) :
    rtuFrame f s = rtuAnswer f s.bufClear := by
  have hp : (s.bufClear.ctx 0).phase = .awaitingResponse := hp
  simp only [rtuFrame, hp]

/-- A good frame that nothing awaits (R213, R239). -/
theorem rtuFrame_of_not_awaiting (f : List Byte) (h : s.Hears) (hp : (s.ctx 0).phase ≠ .awaitingResponse) :
    rtuFrame f s = s.bufClear.soleTurn [.note .strayFrame none] (strayCtx (s.ctx 0)) := by
  have hnote : (rtuStray s.bufClear).soleTurn [] (strayCtx (s.ctx 0)) =
      s.bufClear.soleTurn [.note .strayFrame none] (strayCtx (s.ctx 0)) := by
    simp [State.soleTurn, rtuStray, State.emit]
  unfold rtuFrame
  extract_lets u
  have hctx : u.ctx 0 = s.ctx 0 := rfl
  split
  · rename_i ha
    exact absurd (hctx ▸ ha) hp
  · rename_i hd
    exact (release_of_draining h (rtuStray u) rfl (hctx ▸ hd)).trans hnote
  all_goals
    rename_i ho
    exact (soleTurn_of_not_draining h (rtuStray u) rfl (by rw [← hctx, ho]; exact nofun)).trans hnote

/-! ### `rtu_err!` on either line (R221) -/

theorem rtuErr_of_noisy {err : Status} (he : retryable err = true) (h : s.Hears) (hq : s.lineQuiet = false) :
    rtuErr err s = s.bufClear.startDiscard.soleTurn (lineErrOut err (s.ctx 0)) (lineErrCtx err (s.ctx 0)) := by
  by_cases hp : (s.ctx 0).phase = .awaitingResponse
  · rw [rtuErr_of_awaiting err hp, attemptFail_of_noisy he h hq, lineErrOut, if_pos hp, lineErrCtx, if_pos hp]
  · rw [rtuErr_of_not_awaiting err h hp, lineErrOut, if_neg hp, lineErrCtx, if_neg hp, strayCtx]

theorem rtuErr_of_quiet {err : Status} (he : retryable err = true) (h : s.Hears) (hq : s.lineQuiet = true) :
    rtuErr err s = s.bufClear.startDiscard.soleTurn (quietErrOut err (s.ctx 0)) (quietErrCtx err (s.ctx 0)) := by
  by_cases hp : (s.ctx 0).phase = .awaitingResponse
  · rw [rtuErr_of_awaiting err hp, attemptFail_of_quiet he h hq, quietErrOut, if_pos hp, quietErrCtx, if_pos hp,
      failedOpenOut]
  · rw [rtuErr_of_not_awaiting err h hp, quietErrOut, if_neg hp, quietErrCtx, if_neg hp, strayCtx]

/-! ### The answer to an awaited request (R213, R263) -/

theorem rtuFrame_good {f : List Byte} {body : Body} (h : s.Hears) (hp : (s.ctx 0).phase = .awaitingResponse)
    (hm : matchCheck (s.ctx 0).req (byteAt f 0) (sliceBytes f 1 (f.length - 2)) = .good body) :
    rtuFrame f s =
      s.bufClear.soleTurn [.result ⟨(s.ctx 0).handle, .ok, 0, none, some body⟩] (releasedCtx (s.ctx 0)) := by
  have hm : matchCheck (s.bufClear.ctx 0).req (byteAt f 0) (sliceBytes f 1 (f.length - 2)) = .good body := hm
  have hk : s.bufClear.kind = .rtu := h.kind
  rw [rtuFrame_of_awaiting f hp]
  simp only [rtuAnswer, hm]
  rw [completeGood_eq 0 body s.bufClear h.sole, hk]
  exact h.soleTurn_eq s.bufClear rfl _ releasedCtx

theorem rtuFrame_exc {f : List Byte} {code : Byte} (h : s.Hears) (hp : (s.ctx 0).phase = .awaitingResponse)
    (hm : matchCheck (s.ctx 0).req (byteAt f 0) (sliceBytes f 1 (f.length - 2)) = .exc code) :
    rtuFrame f s =
      s.bufClear.soleTurn [.result ⟨(s.ctx 0).handle, .modbusException, code, none, none⟩] (releasedCtx (s.ctx 0)) := by
  have hm : matchCheck (s.bufClear.ctx 0).req (byteAt f 0) (sliceBytes f 1 (f.length - 2)) = .exc code := hm
  rw [rtuFrame_of_awaiting f hp]
  simp only [rtuAnswer, hm]
  rw [completeExc_eq 0 code s.bufClear h.sole]
  exact h.soleTurn_eq s.bufClear rfl _ releasedCtx

/-- A good frame that does not match the awaited request is an error of the line (R213, R221). -/
theorem rtuFrame_mismatch {f : List Byte} (hp : (s.ctx 0).phase = .awaitingResponse)
    (hm : matchCheck (s.ctx 0).req (byteAt f 0) (sliceBytes f 1 (f.length - 2)) = .invalid) :
    rtuFrame f s = rtuErr .malformedFrame s := by
  have hm : matchCheck (s.bufClear.ctx 0).req (byteAt f 0) (sliceBytes f 1 (f.length - 2)) = .invalid := hm
  rw [rtuFrame_of_awaiting f hp, rtuErr_of_awaiting _ hp]
  simp only [rtuAnswer, hm]

theorem rtuChecked_good {f : List Byte} (hc : crcOk f = true) : rtuChecked f s = rtuFrame f s := if_pos hc

theorem rtuChecked_bad {f : List Byte} (hc : crcOk f = false) : rtuChecked f s = rtuErr .checksumMismatch s :=
  if_neg (Bool.eq_false_iff.mp hc)

end

end Sys2Proof.Machine
end

section
/-! SUPPORT. A byte on an open RTU line (43_reassembly R210 to R213, R221). -/

namespace Sys2Proof.Machine

/-! ### The framer's branches (R210, R211) -/

section
variable {s : State} {b : Byte}

theorem exec_evRxByte_rtu (hl : s.legal = true) (hk : s.kind = .rtu) (hu : s.link = .up) :
    exec (.evRxByte b) s = .next (rtuRxByte b s.begin) := by
  have hrx : onRxByte b s.begin = rtuRxByte b s.begin := by
    rw [onRxByte, if_pos (show s.begin.link = .up from hu), State.begin_kind, hk]
  calc exec (.evRxByte b) s = .next (onRxByte b s.begin) := execEvRxByte_next hl (.inl hk)
    _ = _ := by rw [hrx]

theorem rtuRxByte_discarded (hd : s.rxDiscard = true) : rtuRxByte b s = s.lineBusy := if_pos hd

theorem rtuRxByte_overflow (hd : s.rxDiscard = false) (hfull : s.rxlen = Config.rxbufCap) :
    rtuRxByte b s = rtuErr .malformedFrame s.lineBusy :=
  (if_neg (Bool.eq_false_iff.mp hd)).trans (if_pos hfull)

theorem rtuRxByte_append (hd : s.rxDiscard = false) (hcap : s.rxlen < Config.rxbufCap) :
    rtuRxByte b s = rtuCheck (s.lineBusy.bufAppend b) :=
  (if_neg (Bool.eq_false_iff.mp hd)).trans (if_neg (Nat.ne_of_lt hcap))

theorem rtuCheck_incomplete (h : rtuExpectedLen s.bufBytes ≠ .bytes s.rxlen) : rtuCheck s = s := by
  unfold rtuCheck
  split
  · rename_i n e
    have hn : s.rxlen ≠ n := fun hn => h (hn ▸ e)
    exact if_neg hn
  all_goals rfl

theorem rtuCheck_complete (h : rtuExpectedLen s.bufBytes = .bytes s.rxlen) :
    rtuCheck s = rtuChecked s.bufBytes s := by
  simp only [rtuCheck, h, if_true]

/-- The state in which the framer looks at the buffer: the byte b was taken and appended. -/
def State.taken (b : Byte) (s : State) : State := s.begin.lineBusy.bufAppend b

theorem State.taken_bufBytes (hwf : s.rxbuf.wf = true) : (s.taken b).bufBytes = s.received b :=
  State.bufAppend_bufBytes b s.begin.lineBusy hwf

/-- The block when a frame that the byte b completed has left the buffer. -/
theorem State.taken_clear_block (l : List Output) (c : Ctx) :
    ((s.taken b).bufClear.soleTurn l c).block = { s.block with
      rxbuf := Memory.write s.rxbuf s.rxlen b, rxlen := 0, lineQuiet := false, ctxs := [c] } := by
  simp [State.block, State.soleTurn, State.taken]

/-- The block when, besides, a resync started. -/
theorem State.taken_startDiscard_block (l : List Output) (c : Ctx) :
    ((s.taken b).bufClear.startDiscard.soleTurn l c).block = { s.block with
      rxbuf := Memory.write s.rxbuf s.rxlen b, rxlen := 0, lineQuiet := false, rxDiscard := true, ctxs := [c] } := by
  simp [State.block, State.soleTurn, State.taken]

theorem State.received_length : (s.received b).length = s.rxlen + 1 := by
  simp [State.received, State.bufBytes_length]

theorem State.Inv.lineBusy (hs : s.Inv) (hu : s.link = .up) : s.lineBusy.Inv :=
  hs.receiver rfl rfl rfl rfl (hs.receive.congr rfl rfl rfl rfl fun _ => ⟨hu, rfl⟩)

theorem State.Inv.hears_taken (hs : s.Inv) (hk : s.kind = .rtu) (hu : s.link = .up) (hd : s.rxDiscard = false)
    (hcap : s.rxlen < Config.rxbufCap) : (s.taken b).Hears :=
  ⟨State.Inv.clear_append (s := s.begin.lineBusy) (hs.lineBusy hu) hcap, hk, hu, hd⟩

/-- The byte that completes a frame has its CRC checked (R211). -/
theorem exec_evRxByte_complete (hs : s.Inv) (hk : s.kind = .rtu) (hu : s.link = .up) (hd : s.rxDiscard = false)
    (hcap : s.rxlen < Config.rxbufCap) (he : rtuExpectedLen (s.received b) = .bytes (s.rxlen + 1)) :
    exec (.evRxByte b) s = .next (rtuChecked (s.received b) (s.taken b)) := by
  have hbytes : (s.taken b).bufBytes = s.received b := State.taken_bufBytes hs.rxbuf_wf
  have hcheck : rtuCheck (s.taken b) = rtuChecked (s.received b) (s.taken b) :=
    hbytes ▸ rtuCheck_complete (by rw [hbytes]; exact he)
  calc exec (.evRxByte b) s = .next (rtuRxByte b s.begin) := exec_evRxByte_rtu hs.legal hk hu
    _ = .next (rtuCheck (s.taken b)) := congrArg _ (rtuRxByte_append (s := s.begin) hd hcap)
    _ = _ := by rw [hcheck]

theorem State.sliceBytes_received (n : Nat) :
    sliceBytes (s.received b) n ((s.received b).length - 2) = sliceBytes (s.received b) n (s.rxlen - 1) := by
  rw [State.received_length]
  rfl

end

/-! ### The statements -/

/-- Settles O32: during a resync only `line_quiet` is written, else the byte is only appended. -/
theorem rtuByteTaken : Obligations.RtuByteTaken := by
  intro s b hl hwf hk hu
  have hstep : exec (.evRxByte b) s = .next (rtuRxByte b s.begin) := exec_evRxByte_rtu hl hk hu
  refine ⟨fun hd => ⟨s.begin.lineBusy, ?_, rfl, rfl⟩, fun hd hcap he => ⟨s.taken b, ?_, rfl, rfl,
    Memory.read_write_same _ _ _ 0 hwf, fun a ha => Memory.read_write_other _ _ _ _ ha, State.taken_bufBytes hwf⟩⟩
  · rw [hstep, rtuRxByte_discarded (s := s.begin) hd]
  · have hcheck : rtuCheck (s.taken b) = s.taken b :=
      rtuCheck_incomplete (by rw [State.taken_bufBytes hwf]; exact he)
    rw [hstep, rtuRxByte_append (s := s.begin) hd hcap]
    exact congrArg _ hcheck

/-- Settles O33: the awaiting context is completed, by either kind of answer. -/
theorem rtuResponse : Obligations.RtuResponse := by
  intro s b hs hk hu hd hcap he hc hp
  have hears : (s.taken b).Hears := hs.hears_taken hk hu hd hcap
  have hstep : exec (.evRxByte b) s = .next (rtuFrame (s.received b) (s.taken b)) :=
    (exec_evRxByte_complete hs hk hu hd hcap he).trans (congrArg _ (rtuChecked_good hc))
  rw [← State.sliceBytes_received]
  exact ⟨fun body hm => ⟨_, hstep.trans (congrArg _ (rtuFrame_good hears hp hm)), rfl, State.taken_clear_block _ _⟩,
    fun code hm => ⟨_, hstep.trans (congrArg _ (rtuFrame_exc hears hp hm)), rfl, State.taken_clear_block _ _⟩⟩

/-- Settles O34: the frame is noted, and only a drain is ended. -/
theorem rtuStrayFrame : Obligations.RtuStrayFrame := by
  intro s b hs hk hu hd hcap he hc hp
  have hears : (s.taken b).Hears := hs.hears_taken hk hu hd hcap
  have hframe : rtuChecked (s.received b) (s.taken b) = _ :=
    (rtuChecked_good hc).trans (rtuFrame_of_not_awaiting _ hears hp)
  exact ⟨_, (exec_evRxByte_complete hs hk hu hd hcap he).trans (congrArg _ hframe), rfl, State.taken_clear_block _ _⟩

/-- Settles O35: a byte leaves the line busy, so each of the three errors starts a resync. -/
theorem rtuBadFrame : Obligations.RtuBadFrame := by
  intro s b hs hk hu hd
  refine ⟨fun hfull => ?_, fun hcap he hc => ?_, fun hcap he hc hp hm => ?_⟩
  · have hears : s.begin.lineBusy.Hears := ⟨State.Inv.clear (hs.lineBusy hu), hk, hu, hd⟩
    have herr : rtuRxByte b s.begin = _ :=
      (rtuRxByte_overflow (s := s.begin) hd hfull).trans (rtuErr_of_noisy rfl hears rfl)
    exact ⟨_, (exec_evRxByte_rtu hs.legal hk hu).trans (congrArg _ herr), rfl, rfl⟩
  · have hears : (s.taken b).Hears := hs.hears_taken hk hu hd hcap
    have herr : rtuChecked (s.received b) (s.taken b) = _ :=
      (rtuChecked_bad hc).trans (rtuErr_of_noisy rfl hears rfl)
    exact ⟨_, (exec_evRxByte_complete hs hk hu hd hcap he).trans (congrArg _ herr), rfl,
      State.taken_startDiscard_block _ _⟩
  · rw [← State.sliceBytes_received] at hm
    have hears : (s.taken b).Hears := hs.hears_taken hk hu hd hcap
    have herr : rtuChecked (s.received b) (s.taken b) = _ :=
      ((rtuChecked_good hc).trans (rtuFrame_mismatch (s := s.taken b) hp hm)).trans (rtuErr_of_noisy rfl hears rfl)
    exact ⟨_, (exec_evRxByte_complete hs hk hu hd hcap he).trans (congrArg _ herr), rfl,
      State.taken_startDiscard_block _ _⟩

end Sys2Proof.Machine
end

section
/-! SUPPORT. The silence on an open RTU line (43_reassembly R214, R215). -/

namespace Sys2Proof.Machine

section
variable {s : State}

theorem exec_evRxIdle_rtu (hl : s.legal = true) (hk : s.kind = .rtu) (hu : s.link = .up) :
    exec .evRxIdle s = .next (rtuIdle s.begin) :=
  (runEvent_legal hl).trans (congrArg _ (if_pos ⟨hu, hk⟩))

/-- The state in which the silence ended a resync (R214). -/
def State.resynced (s : State) : State := ((s.endDiscard).bufClear).lineSilent

theorem rtuIdle_resends (hd : s.rxDiscard = true) (hp : (s.ctx 0).phase = .resyncWait) :
    rtuIdle s = sendAttempt 0 s.resynced :=
  (if_pos hd).trans (if_pos (show (s.resynced.ctx 0).phase = .resyncWait from hp))

theorem rtuIdle_resynced (hd : s.rxDiscard = true) (hp : (s.ctx 0).phase ≠ .resyncWait) : rtuIdle s = s.resynced :=
  (if_pos hd).trans (if_neg (show ¬ (s.resynced.ctx 0).phase = .resyncWait from hp))

theorem rtuIdle_empty (hd : s.rxDiscard = false) (h : s.rxlen = 0) : rtuIdle s = s.lineSilent :=
  (if_neg (Bool.eq_false_iff.mp hd)).trans (if_neg (show ¬ s.lineSilent.rxlen > 0 from h ▸ Nat.lt_irrefl 0))

theorem rtuIdle_bytes (hd : s.rxDiscard = false) (h : 0 < s.rxlen) : rtuIdle s = silenceEnd s.lineSilent :=
  (if_neg (Bool.eq_false_iff.mp hd)).trans (if_pos (show s.lineSilent.rxlen > 0 from h))

/-- The silence cuts a frame short (R215). -/
theorem silenceEnd_cut (h : rtuExpectedLen s.bufBytes ≠ .silence ∨ s.rxlen < 4) :
    silenceEnd s = rtuErr .malformedFrame s := by
  unfold silenceEnd
  split
  · rename_i e
    exact if_pos (h.resolve_left fun hne => hne e)
  all_goals rfl

/-- The silence ends a frame that it delimits (R215). -/
theorem silenceEnd_delimits (e : rtuExpectedLen s.bufBytes = .silence) (h4 : 4 ≤ s.rxlen) :
    silenceEnd s = rtuChecked s.bufBytes s := by
  simp only [silenceEnd, e, if_neg (Nat.not_lt_of_le h4)]

theorem State.Inv.hears_silent (hs : s.Inv) (hk : s.kind = .rtu) (hu : s.link = .up) (hd : s.rxDiscard = false) :
    s.lineSilent.Hears := by
  have hrx : s.lineSilent.ReceiveOk :=
    hs.receive.congr rfl rfl rfl rfl fun h => absurd (hd.symm.trans h) nofun
  exact ⟨State.Inv.clear (hs.receiver rfl rfl rfl rfl hrx), hk, hu, hd⟩

end

/-- Settles O36: a context that waited for the resync sends, and otherwise only the line's registers are written. -/
theorem rxIdleEndsResync : Obligations.RxIdleEndsResync := by
  intro s hs hk hu
  have hstep : exec .evRxIdle s = .next (rtuIdle s.begin) := exec_evRxIdle_rtu hs.legal hk hu
  have hc : s.ctxs = [s.ctx 0] := State.legal_rtu hs.legal hk
  refine ⟨fun hd hp => ?_, fun hd hp => ?_, fun hd h0 => ?_⟩
  · have hlen : 0 < s.ctxs.length := by simp [hc]
    have hsend := sendAttempt_rtu 0 s.begin.resynced hu hk rfl hlen
    refine ⟨_, hstep.trans (congrArg _ ((rtuIdle_resends (s := s.begin) hd hp).trans hsend)), rfl, ?_⟩
    have hsent : s.ctxs.modify 0 (sentCtx 0) = [sentCtx 0 (s.ctx 0)] := by
      rw [hc]
      rfl
    exact congrArg (fun cs => { s.block with rxDiscard := false, rxlen := 0, lineQuiet := true, ctxs := cs }) hsent
  · exact ⟨_, hstep.trans (congrArg _ (rtuIdle_resynced (s := s.begin) hd hp)), rfl, rfl⟩
  · exact ⟨_, hstep.trans (congrArg _ (rtuIdle_empty (s := s.begin) hd h0)), rfl, rfl⟩

/-- A silence that ends a frame with an error: the line is quiet, so no resync follows (R214, R221). -/
theorem exec_evRxIdle_error {s : State} {err : Status} (he : retryable err = true) (hs : s.Inv) (hk : s.kind = .rtu)
    (hu : s.link = .up) (hd : s.rxDiscard = false) (h0 : 0 < s.rxlen)
    (herr : silenceEnd s.begin.lineSilent = rtuErr err s.begin.lineSilent) :
    ∃ t, exec .evRxIdle s = .next t ∧ t.out = quietErrOut err (s.ctx 0) ∧
      t.block = { s.block with rxlen := 0, lineQuiet := true, ctxs := [quietErrCtx err (s.ctx 0)] } := by
  have hears : s.begin.lineSilent.Hears := State.Inv.hears_silent (s := s.begin) hs hk hu hd
  have hkept : s.begin.lineSilent.bufClear.startDiscard = s.begin.lineSilent.bufClear :=
    congrArg (fun d => { s.begin.lineSilent.bufClear with rxDiscard := d }) hd.symm
  have hidle : rtuIdle s.begin = _ :=
    ((rtuIdle_bytes (s := s.begin) hd h0).trans herr).trans (rtuErr_of_quiet he hears rfl)
  rw [hkept] at hidle
  exact ⟨_, (exec_evRxIdle_rtu hs.legal hk hu).trans (congrArg _ hidle), rfl, rfl⟩

/-- Settles O37: an error of the line, or a stray frame; a frame that only the silence ends answers no request. -/
theorem rxIdleEndsFrame : Obligations.RxIdleEndsFrame := by
  intro s hs hk hu hd h0
  have hframe : rtuExpectedLen s.bufBytes = .silence → 4 ≤ s.rxlen →
      silenceEnd s.begin.lineSilent = rtuChecked s.bufBytes s.begin.lineSilent :=
    silenceEnd_delimits (s := s.begin.lineSilent)
  refine ⟨fun hcut => ?_, fun e h4 hc => ?_, fun e h4 hc hp => ?_, fun e h4 hc hp => ?_⟩
  · exact exec_evRxIdle_error rfl hs hk hu hd h0 (silenceEnd_cut (s := s.begin.lineSilent) hcut)
  · exact exec_evRxIdle_error rfl hs hk hu hd h0 ((hframe e h4).trans (rtuChecked_bad hc))
  · have hm := matchCheck_of_silence (by rw [State.bufBytes_length]; exact h4) e (s.ctx 0).req (byteAt s.bufBytes 0)
    exact exec_evRxIdle_error rfl hs hk hu hd h0
      (((hframe e h4).trans (rtuChecked_good hc)).trans (rtuFrame_mismatch (s := s.begin.lineSilent) hp hm))
  · have hears : s.begin.lineSilent.Hears := State.Inv.hears_silent (s := s.begin) hs hk hu hd
    have hstray : silenceEnd s.begin.lineSilent = _ :=
      ((hframe e h4).trans (rtuChecked_good hc)).trans (rtuFrame_of_not_awaiting _ hears hp)
    exact ⟨_, (exec_evRxIdle_rtu hs.legal hk hu).trans
      (congrArg _ ((rtuIdle_bytes (s := s.begin) hd h0).trans hstray)), rfl, rfl⟩

end Sys2Proof.Machine
end

section
/-! SUPPORT. The id that `alloc_tid!` returns is the first free one, and `register!` as one update of the table
(44_registry R232, R233). -/

namespace Sys2Proof.Machine

section
variable {s : State}

/-- The loop of `alloc_tid!` skips Pending ids, and no others (R232). -/
theorem State.exists_freeTid_eq (s : State) (n : Nat) (t : Tid) :
    ∃ k ≤ n, s.freeTid n t = t + BitVec.ofNat 16 k ∧ ∀ j < k, s.tidPending (t + BitVec.ofNat 16 j) = true := by
  induction n generalizing t with
  | zero => exact ⟨0, Nat.le_refl 0, by simp [State.freeTid], nofun⟩
  | succ n ih =>
    cases ht : s.tidPending t with
    | false => exact ⟨0, Nat.zero_le _, by simp [State.freeTid, ht], nofun⟩
    | true =>
      have hnext : ∀ k, t + BitVec.ofNat 16 (k + 1) = t + 1 + BitVec.ofNat 16 k := fun k => by
        rw [Nat.add_comm k 1, BitVec.ofNat_add, BitVec.add_assoc]
        rfl
      obtain ⟨k, hk, htid, hskip⟩ := ih (t + 1)
      refine ⟨k + 1, by omega, by rw [State.freeTid, if_pos ht, htid, hnext], fun j hj => ?_⟩
      cases j with
      | zero => simpa using ht
      | succ j => exact hnext j ▸ hskip j (by omega)

theorem State.modCtx_ctxs_eq_set {i : Nat} (hi : i < s.ctxs.length) (f : Ctx → Ctx) :
    (s.modCtx i f).ctxs = s.ctxs.set i (f (s.ctx i)) := by
  rw [State.modCtx, List.modify_eq_set_getElem?, State.getElem?_ctx hi]
  rfl

theorem registerTxn_tcp_ctx {i : Nat} (hk : s.kind = .tcp) (hi : i < s.ctxs.length) :
    (registerTxn i s).ctx i = { s.ctx i with tid := s.nextTid, txn := .pending } := by
  rw [registerTxn_tcp i s hk]
  exact State.ctx_modCtx_same s i _ hi

theorem registerTxn_tcp_block {i : Nat} (hk : s.kind = .tcp) (hi : i < s.ctxs.length) :
    (registerTxn i s).block = { s.block with
      tidCtr := s.nextTid + 1
      ctxs := s.ctxs.set i { s.ctx i with tid := s.nextTid, txn := .pending } } := by
  rw [registerTxn_tcp i s hk, ← State.modCtx_ctxs_eq_set hi fun c => { c with tid := s.nextTid, txn := .pending }]
  rfl

end

/-- Settles O25: the ids that the loop skipped are Pending, and the one it stopped at is free. -/
theorem freshTransactionId : Obligations.FreshTransactionId := by
  intro s i hk hlen hi _
  obtain ⟨n, hn, htid, hskip⟩ : ∃ n ≤ s.ctxs.length, s.nextTid = s.tidCtr + BitVec.ofNat 16 n ∧ _ :=
    State.exists_freeTid_eq s s.ctxs.length s.tidCtr
  have hfree : ¬ ∃ c ∈ s.ctxs, c.txn = .pending ∧ c.tid = s.nextTid := by
    rw [← State.tidPending_iff, State.nextTid_free hlen]
    exact Bool.false_ne_true
  refine ⟨n, by omega, fun k hkn => (State.tidPending_iff s _).mp (hskip k hkn), ?_⟩
  rw [← htid]
  exact ⟨fun c hc hp => hfree ⟨c, hc, hp⟩, registerTxn_tcp_ctx hk hi, registerTxn_tcp_block hk hi⟩

end Sys2Proof.Machine
end

section
/-! SUPPORT. A complete frame on an open TCP session whose id no awaiting context holds (43_reassembly R208; 44_registry
R234, R239). -/

namespace Sys2Proof.Machine

section
variable {s : State} {b : Byte}

/-- An id that no awaiting context holds is not found, whatever its other transactions are (R234). -/
theorem State.lookup_of_not_awaited {t : Tid} (h : ∀ c ∈ s.ctxs, c.phase = .awaitingResponse → c.tid ≠ t) :
    s.lookup t = none :=
  (State.lookup_none s t).mpr fun c hc => by
    by_cases hp : c.phase = .awaitingResponse
    · simp [h c hc hp]
    · simp [hp]

theorem tcpDeliver_stray {f : List Byte} (h : s.lookup (rdBE16 f 0) = none) :
    tcpDeliver f s = s.emit (.note .strayFrame (some (rdBE16 f 0))) := by
  simp only [tcpDeliver, h]

/-- The byte that completes a frame: the frame leaves the buffer and is delivered (R207, R208). -/
theorem exec_evRxByte_tcp_complete (hs : s.Inv) (hk : s.kind = .tcp) (hu : s.link = .up)
    (hcap : s.rxlen < Config.rxbufCap) (h6 : 6 < s.rxlen + 1)
    (hlen : s.rxlen + 1 = 6 + (rdBE16 (s.received b) 4).toNat) :
    exec (.evRxByte b) s = .next (tcpDeliver (s.received b) (s.begin.bufAppend b).bufClear) := by
  have hbytes := State.begin_bufAppend_bufBytes (b := b) hs.rxbuf_wf
  rw [exec_evRxByte_tcp hs.legal hk hu hcap, tcpCheck_complete h6 (by rw [hbytes]; exact hlen), hbytes]

end

/-- Settles O30: the lookup finds no context, so the delivery only notes the frame. -/
theorem tcpStrayFrame : Obligations.TcpStrayFrame := by
  intro s b hs hk hu hcap h6 hlen hstray
  have hnone : (s.begin.bufAppend b).bufClear.lookup (rdBE16 (s.received b) 0) = none :=
    State.lookup_of_not_awaited hstray
  have hstep := exec_evRxByte_tcp_complete hs hk hu hcap h6 hlen
  exact ⟨_, hstep.trans (congrArg _ (tcpDeliver_stray hnone)), rfl, rfl⟩

end Sys2Proof.Machine
end

section
/-! SUPPORT. `sending!` as one update of the block, branch by branch, and the EXECUTE that is accepted (45_engine R250,
R253, R261). -/

namespace Sys2Proof.Machine

theorem State.modify_ctxs_eq_set {s : State} {i : Nat} (hi : i < s.ctxs.length) (f : Ctx → Ctx) :
    s.ctxs.modify i f = s.ctxs.set i (f (s.ctx i)) := State.modCtx_ctxs_eq_set hi f

/-- Settles O58: each branch of `sending!` is one update of the table and of the register it writes. -/
theorem failureReturn : Obligations.FailureReturn := by
  intro s i hi
  refine ⟨fun hl => ?_, fun hl => ?_, fun hl hk hd => ?_, fun hl hk hd => ?_, fun hl hk => ?_⟩
  · rw [sendAttempt_down i s hl, State.modify_ctxs_eq_set hi]
    exact ⟨rfl, rfl⟩
  · rw [sendAttempt_opening i s hl, State.modify_ctxs_eq_set hi]
    exact ⟨rfl, rfl⟩
  · rw [sendAttempt_resync i s hl hk hd, State.modify_ctxs_eq_set hi]
    exact ⟨rfl, rfl⟩
  · rw [sendAttempt_rtu i s hl hk hd hi, State.modify_ctxs_eq_set hi]
    exact ⟨rfl, rfl⟩
  · rw [sendAttempt_tcp i s hl hk hi, State.modify_ctxs_eq_set hi]
    exact ⟨rfl, rfl⟩

section
variable {s : State} {h : Handle} {r : Req} {cfg : ExecCfg} {i : Nat}

/-- In a state of the machine a handle that no context at rest but an Idle or Draining one holds is free (R251). -/
theorem State.findActive_eq_none (hl : s.legal = true)
    (hfree : ∀ c ∈ s.ctxs, c.phase ≠ .idle → c.phase ≠ .draining → c.handle ≠ h) : s.findActive h = none := by
  refine (State.findActive_none s h).mpr fun c hc => ?_
  by_contra hheld
  simp only [Bool.not_eq_false, Bool.and_eq_true, beq_iff_eq] at hheld
  obtain ⟨hact, hh⟩ := hheld
  obtain ⟨hi, hd⟩ := (isActive_of_resting (((State.legal_iff s).mp hl).2.1 c hc)).mp hact
  exact hfree c hc hi hd hh

theorem State.findIdle_eq_some (hi : i < s.ctxs.length) (hp : (s.ctx i).phase = .idle)
    (hlow : ∀ j < i, (s.ctx j).phase ≠ .idle) : s.findIdle = some i :=
  (State.findIdle_some s i).mpr ⟨hi, beq_iff_eq.mpr hp, fun j hj => beq_false_of_ne (hlow j hj)⟩

/-- EXECUTE accepted (R250): the lowest Idle context takes the request and sends. -/
theorem exec_evExecute_accepted (hl : s.legal = true) (hv : validate r cfg = true)
    (hfree : ∀ c ∈ s.ctxs, c.phase ≠ .idle → c.phase ≠ .draining → c.handle ≠ h)
    (hi : i < s.ctxs.length) (hp : (s.ctx i).phase = .idle) (hlow : ∀ j < i, (s.ctx j).phase ≠ .idle) :
    exec (.evExecute h r cfg) s = .next (sendAttempt i (acceptExecute i h r cfg s.begin)) := by
  have hactive : s.begin.findActive h = none := State.findActive_eq_none (s := s.begin) hl hfree
  have hidle : s.begin.findIdle = some i := State.findIdle_eq_some (s := s.begin) hi hp hlow
  refine (runEvent_legal hl).trans (congrArg _ ?_)
  rw [onExecute, if_neg (by simp [hv]), hactive, if_neg (by simp), hidle]

theorem acceptExecute_ctx (hi : i < s.ctxs.length) :
    (acceptExecute i h r cfg s).ctx i = acceptedCtx (s.ctx i) h r cfg .sending := State.ctx_modCtx_same s i _ hi

theorem acceptExecute_set (c : Ctx) : (acceptExecute i h r cfg s).ctxs.set i c = s.ctxs.set i c := by
  rw [acceptExecute_eq, State.modCtx_ctxs, List.modify_eq_set_getElem?]
  cases s.ctxs[i]? <;> simp

/-- The ids in use are those of the Pending transactions. -/
theorem State.nextTid_congr {t : State} (hc : t.tidCtr = s.tidCtr) (hlen : t.ctxs.length = s.ctxs.length)
    (hp : ∀ x, t.tidPending x = s.tidPending x) : t.nextTid = s.nextTid := by
  have hfree : ∀ n x, t.freeTid n x = s.freeTid n x := by
    intro n
    induction n with
    | zero => exact fun _ => rfl
    | succ n ih => intro x; simp only [State.freeTid, hp, ih]
  rw [State.nextTid, State.nextTid, hfree, hc, hlen]

/-- A context that holds no transaction and gets none puts no id in use. -/
theorem State.tidPending_modCtx {f : Ctx → Ctx} (hi : i < s.ctxs.length) (hx : (s.ctx i).txn ≠ .pending)
    (hf : (f (s.ctx i)).txn ≠ .pending) (x : Tid) : (s.modCtx i f).tidPending x = s.tidPending x := by
  rw [Bool.eq_iff_iff, State.tidPending_iff, State.tidPending_iff]
  have hsame : ∀ j, (∃ p, (s.modCtx i f).ctx j = p ∧ p.txn = .pending ∧ p.tid = x) ↔
      ∃ p, s.ctx j = p ∧ p.txn = .pending ∧ p.tid = x := by
    intro j
    by_cases hj : j = i
    · subst hj
      simp [State.ctx_modCtx_same s j f hi, hx, hf]
    · simp [State.ctx_modCtx_other s i j f hj]
  constructor
  · rintro ⟨c, hc, hpend⟩
    obtain ⟨j, hj, rfl⟩ := State.exists_ctx_of_mem hc
    obtain ⟨p, rfl, hp⟩ := (hsame j).mp ⟨_, rfl, hpend⟩
    exact ⟨_, State.ctx_mem (by simpa using hj), hp⟩
  · rintro ⟨c, hc, hpend⟩
    obtain ⟨j, hj, rfl⟩ := State.exists_ctx_of_mem hc
    obtain ⟨p, rfl, hp⟩ := (hsame j).mpr ⟨_, rfl, hpend⟩
    exact ⟨_, State.ctx_mem (by simpa using hj), hp⟩

theorem acceptExecute_nextTid (hi : i < s.ctxs.length) (hx : (s.ctx i).txn = .none) :
    (acceptExecute i h r cfg s).nextTid = s.nextTid :=
  State.nextTid_congr rfl (State.length_modCtx s i _) fun x =>
    State.tidPending_modCtx (f := fun c => acceptedCtx c h r cfg .sending) hi (by simp [hx]) (by simp [acceptedCtx]) x

theorem State.begin_nextTid : s.begin.nextTid = s.nextTid := State.nextTid_congr rfl rfl fun _ => rfl

end

/-- Settles O23: `sending!` of the accepted execute, in the branches that do not transmit. -/
theorem executeWaits : Obligations.ExecuteWaits := by
  intro s h r cfg i hl hv hfree hi hp hlow
  have hstep := exec_evExecute_accepted hl hv hfree hi hp hlow
  obtain ⟨hdown, hopening, hresync, -⟩ :=
    failureReturn (acceptExecute i h r cfg s.begin) i ((State.length_modCtx s.begin i _).symm ▸ hi)
  simp only [acceptExecute_ctx (s := s.begin) hi, acceptExecute_set] at hdown hopening hresync
  exact ⟨fun hlink => ⟨_, hstep, hdown hlink⟩, fun hlink => ⟨_, hstep, hopening hlink⟩,
    fun hlink hk hd => ⟨_, hstep, hresync hlink hk hd⟩⟩

/-- Settles O24: `sending!` of the accepted execute, in the branches that transmit; the request is valid, so its frame
is the encoded one. -/
theorem executeSends : Obligations.ExecuteSends := by
  intro s h r cfg i hl hv hfree hi hp hlow hlink
  have hstep := exec_evExecute_accepted hl hv hfree hi hp hlow
  have hvalid := validRequest_of_validate hv
  obtain ⟨-, -, -, hrtu, htcp⟩ :=
    failureReturn (acceptExecute i h r cfg s.begin) i ((State.length_modCtx s.begin i _).symm ▸ hi)
  simp only [acceptExecute_ctx (s := s.begin) hi, acceptExecute_set] at hrtu htcp
  refine ⟨fun hk hx => ?_, fun hk hd => ?_⟩
  · have htid : (acceptExecute i h r cfg s.begin).nextTid = s.nextTid :=
      (acceptExecute_nextTid (s := s.begin) hi hx).trans State.begin_nextTid
    obtain ⟨hout, hblock⟩ := htcp hlink hk
    rw [htid] at hout hblock
    exact ⟨_, hstep, hout.trans (by rw [← encodeFrame_tcp hvalid]; rfl), hblock⟩
  · obtain ⟨hout, hblock⟩ := hrtu hlink hk hd
    exact ⟨_, hstep, hout.trans (by rw [← encodeFrame_rtu hvalid 0]; rfl), hblock⟩

end Sys2Proof.Machine
end

section
/-! SUPPORT. Under the invariants every instruction completes (10_state R47; 43_reassembly R204; 45_engine R282). -/

namespace Sys2Proof.Machine

/-- Under the invariants there is room in the buffer of a TCP block: a good header declares a frame that fits (R204,
R207). -/
theorem State.Inv.room_of_tcp {s : State} (hs : s.Inv) (hk : s.kind = .tcp) : s.rxlen < Config.rxbufCap := by
  show s.rxlen < 260
  by_contra hfull
  obtain ⟨-, -, -, htcp, -⟩ := hs.receive
  obtain ⟨hhead, hlen⟩ := htcp ⟨hk, by omega⟩
  have hmax : (rdBE16 s.bufBytes 4).toNat ≤ 254 := by
    simp only [headerOk, Bool.and_eq_true, decide_eq_true_eq] at hhead
    exact hhead.2
  omega

theorem exec_evRxByte_completes {s : State} (hs : s.Inv) (b : Byte) : ∃ t, exec (.evRxByte b) s = .next t := by
  refine ⟨_, execEvRxByte_next hs.legal ?_⟩
  cases hk : s.kind with
  | rtu => exact .inl rfl
  | tcp => exact .inr (.inr (hs.room_of_tcp hk))

/-- Settles O50: an event runs its handler in a state of the machine, a byte finds room in the buffer, and every other
row only writes the generator or returns a value. -/
theorem everyInstructionCompletes : Obligations.EveryInstructionCompletes := by
  intro i s hs
  cases i with
  | evRxByte b => exact exec_evRxByte_completes hs b
  | evExecute h r cfg => exact ⟨_, runEvent_legal hs.legal⟩
  | evCancel h => exact ⟨_, runEvent_legal hs.legal⟩
  | evRxIdle => exact ⟨_, runEvent_legal hs.legal⟩
  | evTick => exact ⟨_, runEvent_legal hs.legal⟩
  | evLinkUp => exact ⟨_, runEvent_legal hs.legal⟩
  | evLinkDown => exact ⟨_, runEvent_legal hs.legal⟩
  | _ => exact ⟨_, rfl⟩

end Sys2Proof.Machine
end

section
/-! SUPPORT. The effects of CANCEL (45_engine R266, R267). -/

namespace Sys2Proof.Machine

section
variable {s : State} {h : Handle} {i : Nat}

/-- Under the invariants an active context is the one its handle is looked up to (R251, R266). -/
theorem State.Inv.findActive_eq (hs : s.Inv) (hi : i < s.ctxs.length) (ha : isActive (s.ctx i).phase = true) :
    s.findActive (s.ctx i).handle = some i := by
  refine (State.findActive_some s _ i).mpr ⟨hi, by simp [ha], fun j hji => ?_⟩
  have hj : j < s.ctxs.length := Nat.lt_trans hji hi
  by_contra hheld
  simp only [Bool.not_eq_false, Bool.and_eq_true, beq_iff_eq] at hheld
  obtain ⟨haj, hh⟩ := hheld
  exact (hs.invBut.apart j hj i hi (by simp) (by simp) (by omega)).2 ⟨haj, ha, hh⟩

theorem onCancel_of_none (hf : s.findActive h = none) : onCancel h s = s := by rw [onCancel, hf]

theorem onCancel_of_some (hf : s.findActive h = some i) : onCancel h s = cancelCtx h i s := by rw [onCancel, hf]

/-- What CANCEL makes of the context that holds the handle (R266, R267). -/
def cancelledCtx (k : Kind) (c : Ctx) : Ctx :=
  if k = .rtu ∧ c.phase = .awaitingResponse then { c with phase := .draining, handle := 0, txn := .none }
  else releasedCtx c

theorem cancelledCtx_of_exchange {k : Kind} {c : Ctx} (h : k = .rtu ∧ c.phase = .awaitingResponse) :
    cancelledCtx k c = { c with phase := .draining, handle := 0, txn := .none } := if_pos h

theorem cancelledCtx_of_no_exchange {k : Kind} {c : Ctx} (h : ¬ (k = .rtu ∧ c.phase = .awaitingResponse)) :
    cancelledCtx k c = releasedCtx c := if_neg h

theorem cancelTxn_of_registered (hx : (s.ctx i).txn = .none ∨ (s.ctx i).txn = .pending) :
    cancelTxn i s = s.modCtx i fun c => { c with txn := .none } := by
  rw [cancelTxn_eq]
  refine State.modCtx_congr s i _ _ ?_
  rcases hx with hx | hx <;> simp [hx]

/-- CANCEL of a held handle as one update (R266). -/
theorem cancelCtx_eq (hi : i < s.ctxs.length) (hx : (s.ctx i).txn = .none ∨ (s.ctx i).txn = .pending) :
    cancelCtx h i s = (s.emit (plainResult h .cancelled 0)).modCtx i (cancelledCtx s.kind) := by
  unfold cancelCtx
  rw [cancelTxn_of_registered (s := s.emit _) hx]
  extract_lets u
  have hc : u.ctx i = { s.ctx i with txn := .none } := State.ctx_modCtx_same (s.emit _) i _ hi
  have hdrains : (u.kind = .rtu ∧ (u.ctx i).phase = .awaitingResponse) ↔
      (s.kind = .rtu ∧ (s.ctx i).phase = .awaitingResponse) := by rw [hc]; rfl
  rw [if_congr hdrains rfl rfl]
  split
  · rename_i hd
    rw [State.modCtx_modCtx]
    exact State.modCtx_congr (s.emit _) i _ _ (cancelledCtx_of_exchange (c := s.ctx i) hd).symm
  · rename_i hd
    rw [release_eq, State.modCtx_modCtx]
    exact State.modCtx_congr (s.emit _) i _ _ (cancelledCtx_of_no_exchange (c := s.ctx i) hd).symm

end

/-- Settles O26: a handle that nothing holds is not found; a held one is found at its holder, which drains or is
released. -/
theorem cancelEffects : Obligations.CancelEffects := by
  refine ⟨fun s h hl hfree => ?_, fun s h i hs hi hidle hdrain hh => ?_⟩
  · have hnone : s.begin.findActive h = none := State.findActive_eq_none (s := s.begin) hl hfree
    exact ⟨s.begin, (runEvent_legal hl).trans (congrArg _ (onCancel_of_none hnone)), rfl, rfl⟩
  · have hown := hs.invBut.own i hi (by simp)
    have hfound : s.begin.findActive (s.begin.ctx i).handle = some i :=
      State.Inv.findActive_eq (s := s.begin) hs hi ((isActive_of_resting hown.resting).mpr ⟨hidle, hdrain⟩)
    have hcancel : onCancel h s.begin = cancelCtx h i s.begin := onCancel_of_some (hh ▸ hfound)
    have heq := cancelCtx_eq (s := s.begin) (h := h) hi hown.txn.1
    refine ⟨_, (runEvent_legal hs.legal).trans (congrArg _ (hcancel.trans heq)), rfl, ?_⟩
    exact congrArg (fun cs => { s.block with ctxs := cs }) (State.modify_ctxs_eq_set hi (cancelledCtx s.kind))

end Sys2Proof.Machine
end

section
/-! SUPPORT. A complete frame on an open TCP session that answers an awaited request (43_reassembly R208; 44_registry
R234; 45_engine R263, R264). -/

namespace Sys2Proof.Machine

section
variable {s : State} {f : List Byte} {i : Nat}

theorem tcpDeliver_good {body : Body} (hf : s.lookup (rdBE16 f 0) = some i) (hi : i < s.ctxs.length)
    (hk : s.kind = .tcp) (hm : matchCheck (s.ctx i).req (byteAt f 6) (f.drop 7) = .good body) :
    tcpDeliver f s =
      (s.emit (.result ⟨(s.ctx i).handle, .ok, 0, some (s.ctx i).tid, some body⟩)).modCtx i releasedCtx := by
  have hdeliver : tcpDeliver f s = completeGood i body s := by simp only [tcpDeliver, hf, hm]
  rw [hdeliver, completeGood_eq i body s hi, hk]
  rfl

theorem tcpDeliver_exc {code : Byte} (hf : s.lookup (rdBE16 f 0) = some i) (hi : i < s.ctxs.length)
    (hm : matchCheck (s.ctx i).req (byteAt f 6) (f.drop 7) = .exc code) :
    tcpDeliver f s =
      (s.emit (.result ⟨(s.ctx i).handle, .modbusException, code, none, none⟩)).modCtx i releasedCtx := by
  have hdeliver : tcpDeliver f s = completeExc i code s := by simp only [tcpDeliver, hf, hm]
  rw [hdeliver, completeExc_eq i code s hi]
  rfl

end

/-- Settles O29: the frame's id is looked up to the awaiting context, which completes. -/
theorem tcpResponse : Obligations.TcpResponse := by
  intro s b i hs hk hu hcap h6 hlen hi hp htid
  have hfound : (s.begin.bufAppend b).bufClear.lookup (rdBE16 (s.received b) 0) = some i :=
    htid ▸ hs.lookup_awaiting hk hi hp
  have hstep := exec_evRxByte_tcp_complete hs hk hu hcap h6 hlen
  have hset := State.modify_ctxs_eq_set hi releasedCtx
  have hblock := congrArg (fun cs => { s.block with
    rxbuf := Memory.write s.rxbuf s.rxlen b, rxlen := 0, ctxs := cs }) hset
  exact ⟨fun body hm => ⟨_, hstep.trans (congrArg _ (tcpDeliver_good hfound hi hk hm)), rfl, hblock⟩,
    fun code hm => ⟨_, hstep.trans (congrArg _ (tcpDeliver_exc hfound hi hm)), rfl, hblock⟩⟩

end Sys2Proof.Machine
end

section
/-! SUPPORT. LINK_UP: every waiting context sends in its turn, with the next id (45_engine R275, R261; 44_registry R232,
R241). -/

namespace Sys2Proof.Machine

section
variable {s : State}

/-- With one context in the table a loop is its turn. -/
theorem State.forCtx_sole (hlen : s.ctxs.length = 1) (f : Nat → State → State) : s.forCtx f = f 0 s := by
  rw [State.forCtx, hlen]
  rfl

theorem State.Inv.length_rtu (hs : s.Inv) (hk : s.kind = .rtu) : s.ctxs.length = 1 :=
  State.length_of_rtu hs.invBut.table hk

/-- An update of the one context of an RTU table. -/
theorem State.Inv.modify_sole (hs : s.Inv) (hk : s.kind = .rtu) (g : Ctx → Ctx) :
    s.ctxs.modify 0 g = [g (s.ctx 0)] := by
  have hc : s.ctxs = [s.ctx 0] := State.legal_rtu hs.legal hk
  rw [hc]
  rfl

theorem onLinkUp_of_up (hu : s.link = .up) : onLinkUp s = s := if_pos hu

theorem onLinkUp_of_not_up (hu : s.link ≠ .up) : onLinkUp s = (s.setLink .up).forCtx linkUpCtx := if_neg hu

theorem linkUpCtx_of_waiting {i : Nat} (hp : (s.ctx i).phase = .linkWait) : linkUpCtx i s = sendAttempt i s := if_pos hp

theorem linkUpCtx_of_not_waiting {i : Nat} (hp : (s.ctx i).phase ≠ .linkWait) : linkUpCtx i s = s := if_neg hp

theorem exec_evLinkUp (hs : s.Inv) : exec .evLinkUp s = .next (onLinkUp s.begin) := runEvent_legal hs.legal

end

/-- Settles O44: the table's one context takes its turn on the open session, on which no resync runs. -/
theorem linkUpRtu : Obligations.LinkUpRtu := by
  intro s hs hk hu
  have hsole : (s.begin.setLink .up).ctxs.length = 1 := hs.length_rtu hk
  have hloop : onLinkUp s.begin = linkUpCtx 0 (s.begin.setLink .up) :=
    (onLinkUp_of_not_up (s := s.begin) hu).trans (State.forCtx_sole hsole linkUpCtx)
  have hstep := (exec_evLinkUp hs).trans (congrArg _ hloop)
  refine ⟨fun hp => ?_, fun hp => ?_⟩
  · have hsend := sendAttempt_rtu 0 (s.begin.setLink .up) rfl hk (hs.no_discard hu)
      (show 0 < s.ctxs.length by rw [hs.length_rtu hk]; decide)
    refine ⟨_, hstep.trans (congrArg _ ((linkUpCtx_of_waiting (s := s.begin.setLink .up) hp).trans hsend)), rfl, ?_⟩
    exact congrArg (fun cs => { s.block with link := .up, rxlen := 0, ctxs := cs }) (hs.modify_sole hk (sentCtx 0))
  · exact ⟨_, hstep.trans (congrArg _ (linkUpCtx_of_not_waiting (s := s.begin.setLink .up) hp)), rfl, rfl⟩

section
variable {s t : State} {k : Nat}

/-- The contexts in LinkWait below index n, ascending. -/
def State.waitingBelow (s : State) (n : Nat) : List Nat :=
  (List.range n).filter fun i => (s.ctx i).phase == .linkWait

theorem State.waitingBelow_length (s : State) : s.waitingBelow s.ctxs.length = s.waiting := rfl

theorem State.mem_waitingBelow {i n : Nat} : i ∈ s.waitingBelow n ↔ i < n ∧ (s.ctx i).phase = .linkWait := by
  simp [State.waitingBelow]

theorem State.waitingBelow_length_le (s : State) (n : Nat) : (s.waitingBelow n).length ≤ n := by
  simpa [State.waitingBelow] using List.length_filter_le (fun i => (s.ctx i).phase == .linkWait) (List.range n)

theorem State.waitingBelow_succ_waiting (hp : (s.ctx k).phase = .linkWait) :
    s.waitingBelow (k + 1) = s.waitingBelow k ++ [k] := by
  simp [State.waitingBelow, List.range_succ, hp]

theorem State.waitingBelow_succ_not_waiting (hp : (s.ctx k).phase ≠ .linkWait) :
    s.waitingBelow (k + 1) = s.waitingBelow k := by
  simp [State.waitingBelow, List.range_succ, hp]

theorem State.waitingBelow_succ_length (hp : (s.ctx k).phase = .linkWait) :
    (s.waitingBelow (k + 1)).length = (s.waitingBelow k).length + 1 := by
  simp [State.waitingBelow_succ_waiting hp]

theorem State.waitingBelow_succ_getD {j : Nat} (hp : (s.ctx k).phase = .linkWait)
    (hj : j < (s.waitingBelow k).length) : (s.waitingBelow (k + 1)).getD j 0 = (s.waitingBelow k).getD j 0 := by
  rw [State.waitingBelow_succ_waiting hp, List.getD_append _ _ _ _ hj]

theorem State.waitingBelow_succ_getD_last (hp : (s.ctx k).phase = .linkWait) :
    (s.waitingBelow (k + 1)).getD (s.waitingBelow k).length 0 = k := by
  simp [State.waitingBelow_succ_waiting hp]

theorem State.waitingBelow_getD_lt {j : Nat} (hj : j < (s.waitingBelow k).length) :
    (s.waitingBelow k).getD j 0 < k := by
  rw [List.getD_eq_getElem _ _ hj]
  exact (State.mem_waitingBelow.mp (List.getElem_mem hj)).1

/-- The j-th id from the counter on. -/
def State.tidAfter (s : State) (j : Nat) : Tid := s.tidCtr + BitVec.ofNat 16 j

theorem State.tidAfter_succ (s : State) (j : Nat) : s.tidAfter (j + 1) = s.tidAfter j + 1 := by
  rw [State.tidAfter, State.tidAfter, BitVec.ofNat_add, BitVec.add_assoc]
  rfl

/-- Fewer than 2^16 ids from the counter on differ. -/
theorem State.tidAfter_ne {j n : Nat} (hj : j < n) (hn : n ≤ 65535) : s.tidAfter j ≠ s.tidAfter n := by
  intro h
  have h := congrArg BitVec.toNat ((BitVec.add_right_inj s.tidCtr).mp h)
  simp only [BitVec.toNat_ofNat] at h
  omega

/-- The id at the counter is allocated when no Pending transaction holds it (R232). -/
theorem State.nextTid_of_free (h : s.tidPending s.tidCtr = false) : s.nextTid = s.tidCtr := by
  unfold State.nextTid
  cases s.ctxs.length with
  | zero => rfl
  | succ n => rw [State.freeTid, if_neg (by simp [h])]

/-- The frame of the j-th context in LinkWait, sent with the j-th id from the counter on. -/
def State.waitingFrame (s : State) (k j : Nat) : Output :=
  .txFrame (encodeFrame (s.ctx ((s.waitingBelow k).getD j 0)).req .tcp (s.tidAfter j))

/-- What LINK_UP on TCP has made of s before the k-th context's turn: the contexts in LinkWait below k have sent, with
consecutive ids from the counter on (R275, R232). -/
structure SentBelow (s : State) (k : Nat) (t : State) : Prop where
  block : t.block = { s.block with link := .up, tidCtr := s.tidAfter (s.waitingBelow k).length, ctxs := t.ctxs }
  length : t.ctxs.length = s.ctxs.length
  out : t.out = (List.range (s.waitingBelow k).length).map (s.waitingFrame k)
  sent : ∀ j < (s.waitingBelow k).length,
    t.ctx ((s.waitingBelow k).getD j 0) = sentCtx (s.tidAfter j) (s.ctx ((s.waitingBelow k).getD j 0))
  kept : ∀ i, k ≤ i ∨ (s.ctx i).phase ≠ .linkWait → t.ctx i = s.ctx i

/-- Before the first turn. -/
theorem SentBelow.start (s : State) : SentBelow s 0 (s.begin.setLink .up) where
  block := by simp [State.waitingBelow, State.tidAfter, State.block]
  length := rfl
  out := rfl
  sent := nofun
  kept := fun _ _ => rfl

/-- The id at the counter is free at each turn: the ids sent so far are behind it, and no other is Pending (R241). -/
theorem SentBelow.tid_free (h : SentBelow s k t) (hk : k ≤ s.ctxs.length) (hlen : s.ctxs.length ≤ 65535)
    (hnone : ∀ i < s.ctxs.length, (s.ctx i).txn = .none) : t.tidPending t.tidCtr = false := by
  have htid : t.tidCtr = s.tidAfter (s.waitingBelow k).length := congrArg Block.tidCtr h.block
  by_contra hp
  obtain ⟨c, hc, hpend, hct⟩ := (State.tidPending_iff t _).mp (Bool.not_eq_false _ ▸ hp)
  obtain ⟨i, hi, rfl⟩ := State.exists_ctx_of_mem hc
  by_cases hw : i ∈ s.waitingBelow k
  · obtain ⟨j, hj, rfl⟩ := List.mem_iff_getElem.mp hw
    have hsent := h.sent j hj
    rw [List.getD_eq_getElem _ _ hj] at hsent
    rw [hsent, htid] at hct
    have hle := s.waitingBelow_length_le k
    exact State.tidAfter_ne hj (by omega) hct
  · have hkept : t.ctx i = s.ctx i := h.kept i (by
      by_contra hno
      exact hw (State.mem_waitingBelow.mpr (by simpa using hno)))
    rw [hkept, hnone i (h.length ▸ hi)] at hpend
    cases hpend

/-- The turn of a context that waits for the session: its frame is sent with the id at the counter. -/
theorem SentBelow.send (h : SentBelow s k t) (hk : k < s.ctxs.length) (htcp : s.kind = .tcp)
    (hfree : t.tidPending t.tidCtr = false) (hp : (s.ctx k).phase = .linkWait) :
    SentBelow s (k + 1) (linkUpCtx k t) := by
  have hctx : t.ctx k = s.ctx k := h.kept k (.inl (Nat.le_refl k))
  have htid : t.nextTid = s.tidAfter (s.waitingBelow k).length :=
    (State.nextTid_of_free hfree).trans (congrArg Block.tidCtr h.block)
  have hturn : linkUpCtx k t = _ := (linkUpCtx_of_waiting (hctx ▸ hp)).trans
    (sendAttempt_tcp k t (congrArg Block.link h.block) ((congrArg Block.kind h.block).trans htcp) (h.length.symm ▸ hk))
  have hlen := State.waitingBelow_succ_length hp
  have hlast := State.waitingBelow_succ_getD_last hp
  have hframe := turn_linkUpCtx k t
  have hsame : (linkUpCtx k t).ctx k = sentCtx (s.tidAfter (s.waitingBelow k).length) (s.ctx k) := by
    rw [hturn, ← hctx, ← htid]
    exact State.ctx_modCtx_same t k (sentCtx t.nextTid) (h.length.symm ▸ hk)
  refine ⟨?_, hframe.length.trans h.length, ?_, fun j hj => ?_, fun i hi => ?_⟩
  · have hblock : (linkUpCtx k t).block = { t.block with tidCtr := t.nextTid + 1, ctxs := (linkUpCtx k t).ctxs } := by
      rw [hturn]; rfl
    rw [hblock, h.block, htid, hlen, State.tidAfter_succ]
  · have hout : (linkUpCtx k t).out = t.out ++ [.txFrame (encodeFrame (t.ctx k).req .tcp t.nextTid)] := by rw [hturn]
    rw [hout, h.out, hlen, List.range_succ, List.map_append, hctx, htid]
    refine congrArg₂ _ (List.map_congr_left fun j hj => ?_) ?_
    · rw [State.waitingFrame, State.waitingFrame, State.waitingBelow_succ_getD hp (List.mem_range.mp hj)]
    · rw [List.map_singleton, State.waitingFrame, hlast]
  · rw [hlen] at hj
    rcases Nat.lt_succ_iff_lt_or_eq.mp hj with hj | rfl
    · rw [State.waitingBelow_succ_getD hp hj, hframe.others _ (Nat.ne_of_lt (State.waitingBelow_getD_lt hj))]
      exact h.sent j hj
    · rw [hlast]; exact hsame
  · have hne : i ≠ k := by
      rintro rfl
      rcases hi with hi | hi
      · omega
      · exact hi hp
    rw [hframe.others i hne]
    exact h.kept i (hi.imp_left fun hi => by omega)

/-- The turn of any other context. -/
theorem SentBelow.skip (h : SentBelow s k t) (hp : (s.ctx k).phase ≠ .linkWait) :
    SentBelow s (k + 1) (linkUpCtx k t) := by
  have hctx : t.ctx k = s.ctx k := h.kept k (.inl (Nat.le_refl k))
  have hsame := State.waitingBelow_succ_not_waiting hp
  have hframe : s.waitingFrame (k + 1) = s.waitingFrame k := by
    funext j
    rw [State.waitingFrame, State.waitingFrame, hsame]
  rw [linkUpCtx_of_not_waiting (hctx ▸ hp)]
  refine ⟨by rw [hsame]; exact h.block, h.length, by rw [hsame, hframe]; exact h.out, by rw [hsame]; exact h.sent,
    fun i hi => h.kept i ?_⟩
  rcases hi with hi | hi
  · exact .inl (by omega)
  · exact .inr hi

/-- Without an open session no transaction is Pending (R47 item 2, R241). -/
theorem State.Inv.txn_none_of_not_up (hs : s.Inv) (hu : s.link ≠ .up) {i : Nat} (hi : i < s.ctxs.length) :
    (s.ctx i).txn = .none :=
  (hs.invBut.own i hi (by simp)).txn_eq_none fun hp => hu ((hs.invBut.session i hi (by simp) hi).1 (.inl hp))

/-- The whole loop of LINK_UP on TCP (R275). -/
theorem onLinkUp_tcp (hs : s.Inv) (hk : s.kind = .tcp) (hu : s.link ≠ .up) :
    SentBelow s s.ctxs.length (onLinkUp s.begin) := by
  rw [onLinkUp_of_not_up (s := s.begin) hu]
  refine State.forCtx_index (SentBelow s) linkUpCtx (s.begin.setLink .up) (.start s) fun i t hi ht => ?_
  by_cases hp : (s.ctx i).phase = .linkWait
  · exact ht.send hi hk (ht.tid_free (Nat.le_of_lt hi) (State.length_le_of_tableOk hs.invBut.table)
      fun _ => hs.txn_none_of_not_up hu) hp
  · exact ht.skip hp

end

/-- Settles O43: the loop of LINK_UP, turn after turn. -/
theorem linkUpTcp : Obligations.LinkUpTcp := by
  intro s hs
  refine ⟨fun hu => ⟨_, (exec_evLinkUp hs).trans (congrArg _ (onLinkUp_of_up (s := s.begin) hu)), rfl, rfl⟩,
    fun hk hu => ?_⟩
  obtain ⟨hblock, hlen, hout, hsent, hkept⟩ := onLinkUp_tcp hs hk hu
  rw [State.waitingBelow_length] at hblock hout hsent
  exact ⟨_, exec_evLinkUp hs, congrArg Block.link hblock, hblock, hlen, hout, hsent, fun i _ hp => hkept i (.inr hp)⟩

end Sys2Proof.Machine
end

section
/-! SUPPORT. LINK_DOWN: each context takes its turn on the closed session (45_engine R276, R261, R262). -/

namespace Sys2Proof.Machine

section
variable {s : State} {i : Nat}

theorem lossResult_of_reopens (c : Ctx) (h : lossReopens c = true) : lossResult c = none := by
  simp only [lossReopens, Bool.or_eq_true, Bool.and_eq_true, beq_iff_eq] at h
  rcases h with ⟨hp | hp, hn⟩ | hp
  · rw [lossResult, if_pos hp, failedResult_of_hasRetry _ (Ctx.retriesNow_iff.mp hn).1]
  · rw [lossResult, if_neg (by simp [hp]), if_pos hp, failedResult_of_hasRetry _ (Ctx.retriesNow_iff.mp hn).1]
  · simp [lossResult, hp]

/-- What a context's turn makes of a session that is not open: REQ_OPEN or its result is emitted, and the context is g
of what it was. -/
def State.afterLoss (g : Ctx → Ctx) (i : Nat) (s : State) : State :=
  { s with
    link := if lossReopens (s.ctx i) = true then .opening else s.link
    out := s.out ++ turnOutput lossReopens lossResult s.link (s.ctx i)
    ctxs := s.ctxs.modify i g }

theorem State.afterLoss_congr {f g : Ctx → Ctx} (h : f (s.ctx i) = g (s.ctx i)) : s.afterLoss f i = s.afterLoss g i :=
  congrArg (fun cs => { s.afterLoss f i with ctxs := cs }) (congrArg State.ctxs (State.modCtx_congr s i f g h))

/-- The turn of a context that LINK_DOWN does not concern. -/
theorem State.afterLoss_of_kept (hr : lossReopens (s.ctx i) = false) (hn : lossResult (s.ctx i) = none)
    (hc : lossCtx (s.ctx i) = s.ctx i) : s.afterLoss lossCtx i = s := by
  rw [State.afterLoss_congr (g := id) hc]
  simp [State.afterLoss, turnOutput, hr, hn]

/-- An attempt that the loss of the session fails (R276, R262). -/
theorem attemptFail_of_loss {err : Status} (he : retryable err = true) (hi : i < s.ctxs.length)
    (hx : (s.ctx i).txn = .none ∨ (s.ctx i).txn = .pending) (hl : s.link ≠ .up)
    (hr : lossReopens (s.ctx i) = (s.ctx i).retriesNow) (hn : lossResult (s.ctx i) = failedResult err (s.ctx i))
    (hc : lossCtx (s.ctx i) = failedCtx err .linkWait (s.ctx i)) : attemptFail i err s = s.afterLoss lossCtx i := by
  rw [attemptFail_not_up he hi hx hl, State.afterLoss_congr hc]
  simp only [State.afterLoss, turnOutput, hr, hn]

/-- A context that waited for a resync waits for the session, which it re-opens if it is closed (R276, R261). -/
theorem sendAttempt_of_loss (hp : (s.ctx i).phase = .resyncWait) (hl : s.link ≠ .up) :
    sendAttempt i s = s.afterLoss lossCtx i := by
  have hr : lossReopens (s.ctx i) = true := by simp [lossReopens, hp]
  have hc : lossCtx (s.ctx i) = { s.ctx i with phase := .linkWait, timer := 0 } := by simp [lossCtx, hp]
  rw [State.afterLoss_congr (g := fun c => { c with phase := .linkWait, timer := 0 }) hc]
  cases hlink : s.link with
  | up => exact absurd hlink hl
  | down => simp [sendAttempt_down i s hlink, State.afterLoss, turnOutput, hr, hlink]
  | opening => simp [sendAttempt_opening i s hlink, State.afterLoss, turnOutput, hr, hlink]

/-- One context's turn in LINK_DOWN, which has closed the session (R276). -/
theorem linkDownCtx_eq (hi : i < s.ctxs.length) (hx : (s.ctx i).txn = .none ∨ (s.ctx i).txn = .pending)
    (hl : s.link ≠ .up) : linkDownCtx i s = s.afterLoss lossCtx i := by
  unfold linkDownCtx
  split
  · rename_i hp
    exact attemptFail_of_loss rfl hi hx hl (by simp [lossReopens, hp]) (if_pos hp) (if_pos hp)
  · rename_i hp
    exact attemptFail_of_loss rfl hi hx hl (by simp [lossReopens, hp]) (by simp [lossResult, hp])
      (by simp [lossCtx, hp])
  · rename_i hp
    exact sendAttempt_of_loss hp hl
  · rename_i hp
    have hc : lossCtx (s.ctx i) = releasedCtx (s.ctx i) := by simp [lossCtx, hp]
    rw [State.afterLoss_congr hc, release_eq]
    simp [State.afterLoss, turnOutput, lossReopens, lossResult, hp, State.modCtx]
  all_goals
    rename_i hp
    exact (State.afterLoss_of_kept (by simp [lossReopens, hp]) (by simp [lossResult, hp]) (by simp [lossCtx, hp])).symm

theorem exec_evLinkDown (hs : s.Inv) : exec .evLinkDown s = .next (onLinkDown s.begin) := runEvent_legal hs.legal

/-- LINK_DOWN on a session that is not closed (R276). -/
theorem onLinkDown_eq (hl : s.link ≠ .down)
    (hx : ∀ i < s.ctxs.length, (s.ctx i).txn = .none ∨ (s.ctx i).txn = .pending) :
    onLinkDown s =
      { s.linkLost with
        link := if s.ctxs.any lossReopens = true then .opening else .down
        out := s.out ++ turnOutputs lossReopens lossResult s.ctxs
        ctxs := s.ctxs.map lossCtx } :=
  (if_neg hl).trans <| State.forCtx_of_closed (f := linkDownCtx) (g := lossCtx) lossResult_of_reopens (s := s.linkLost)
    rfl fun i t hi hlen hc hl => by
      have hc : t.ctx i = s.ctx i := hc
      rw [linkDownCtx_eq (hlen.symm ▸ hi) (hc ▸ hx i hi) hl, State.afterLoss, hc]
      rfl

end

/-- Settles O45: the loop of LINK_DOWN over the closed session. -/
theorem linkDownFailsAll : Obligations.LinkDownFailsAll := by
  intro s hs
  refine ⟨fun hl => ?_, fun hl => ?_⟩
  · exact ⟨s.begin, (exec_evLinkDown hs).trans (congrArg _ (if_pos hl)), rfl, rfl⟩
  · have hdown := onLinkDown_eq (s := s.begin) hl fun i hi => (hs.invBut.own i hi (by simp)).txn.1
    exact ⟨_, (exec_evLinkDown hs).trans (congrArg _ hdown), rfl, rfl⟩

end Sys2Proof.Machine
end

section
/-! SUPPORT. One context's turn in TICK: its timer advances, and at the limit its deadline is handled (45_engine R270 to
R274, R277; 60_exceptions R316). -/

namespace Sys2Proof.Machine

/-! ### The timer -/

theorem timerNext_toNat (t : Word32) : (timerNext t).toNat = min (t.toNat + 1) (2 ^ 32 - 1) := by
  have hlt := t.isLt
  unfold timerNext
  split
  · rename_i h
    subst h
    decide
  · rename_i h
    have hne : t.toNat ≠ 2 ^ 32 - 1 := fun e => h (BitVec.eq_of_toNat_eq e)
    rw [BitVec.toNat_add, show (1 : Word32).toNat = 1 from rfl]
    omega

/-- A timer that saturates has reached every limit (R13, R270). -/
theorem le_timerNext_iff (l t : Word32) : l ≤ timerNext t ↔ l.toNat ≤ t.toNat + 1 := by
  have hlt := l.isLt
  rw [BitVec.le_def, timerNext_toNat]
  omega

theorem timerNext_of_lt {l t : Word32} (h : t.toNat + 1 < l.toNat) : timerNext t = t + 1 := by
  have hlt := l.isLt
  refine if_neg fun e => ?_
  rw [e, BitVec.toNat_allOnes] at h
  omega

theorem Ctx.dueOnTick_iff {c : Ctx} : c.dueOnTick = true ↔ isTimed c.phase = true ∧ c.limit ≤ timerNext c.timer := by
  rw [le_timerNext_iff]
  simp [Ctx.dueOnTick]

/-- A context that is due stands in a timed phase. -/
theorem Ctx.timed_of_due {c : Ctx} (hd : c.dueOnTick = true) : isTimed c.phase = true := (Ctx.dueOnTick_iff.mp hd).1

/-! ### The turn -/

/-- A context whose timer advanced (R270). -/
def Ctx.ticked (c : Ctx) : Ctx := { c with timer := timerNext c.timer }

/-- A context after a TICK that does not bring it to its limit (R270). -/
def agedCtx (c : Ctx) : Ctx := if isTimed c.phase = true then c.ticked else c

theorem agedCtx_of_timed {c : Ctx} (ht : isTimed c.phase = true) : agedCtx c = c.ticked := if_pos ht

theorem agedCtx_of_untimed {c : Ctx} (ht : isTimed c.phase = false) : agedCtx c = c := if_neg (Bool.eq_false_iff.mp ht)

/-- What the deadline of a phase does to context i (R271 to R274, R277). -/
def deadlineOf (p : Phase) (i : Nat) (s : State) : State :=
  match p with
  | .awaitingResponse => deadlineAwait i s
  | .backoff => sendAttempt i s
  | .resyncWait => deadlineResync i s
  | .linkWait => attemptFail i .connectionError s
  | .draining => release i s
  | .idle => s
  | .sending => s
  | .decoding => s
  | .timedOut => s
  | .retryOrFail => s
  | .exceptionReceived => s

section
variable {s : State} {i : Nat}

/-- The deadline test, once for all phases (R270). -/
theorem tickDeadline_eq (i : Nat) (s : State) (ht : isTimed (s.ctx i).phase = true) :
    tickDeadline i s = if (s.ctx i).limit ≤ (s.ctx i).timer then deadlineOf (s.ctx i).phase i s else s := by
  unfold tickDeadline Ctx.limit
  cases hp : (s.ctx i).phase with
  | awaitingResponse => rfl
  | backoff => rfl
  | resyncWait => rfl
  | linkWait => rfl
  | draining => rfl
  | _ => rw [hp] at ht; cases ht

theorem tickCtx_of_timed (ht : isTimed (s.ctx i).phase = true) :
    tickCtx i s = tickDeadline i (s.modCtx i agedCtx) :=
  (if_pos ht).trans (congrArg _ (State.modCtx_congr s i _ _ (agedCtx_of_timed ht).symm))

theorem State.ctx_aged (hi : i < s.ctxs.length) (ht : isTimed (s.ctx i).phase = true) :
    (s.modCtx i agedCtx).ctx i = (s.ctx i).ticked :=
  (State.ctx_modCtx_same s i _ hi).trans (agedCtx_of_timed ht)

/-- The turn of a context that reaches its limit. -/
theorem tickCtx_of_due (hi : i < s.ctxs.length) (hd : (s.ctx i).dueOnTick = true) :
    tickCtx i s = deadlineOf (s.ctx i).phase i (s.modCtx i agedCtx) := by
  obtain ⟨ht, hlimit⟩ := Ctx.dueOnTick_iff.mp hd
  have hc := State.ctx_aged hi ht
  rw [tickCtx_of_timed ht, tickDeadline_eq i _ (by rw [hc]; exact ht), hc]
  exact if_pos hlimit

/-- The turn of a context that does not reach its limit. -/
theorem tickCtx_of_not_due (hi : i < s.ctxs.length) (hd : (s.ctx i).dueOnTick = false) :
    tickCtx i s = s.modCtx i agedCtx := by
  cases ht : isTimed (s.ctx i).phase with
  | false => exact (if_neg (Bool.eq_false_iff.mp ht)).trans (State.modCtx_of_fixed (agedCtx_of_untimed ht)).symm
  | true =>
    have hlimit : ¬ (s.ctx i).limit ≤ timerNext (s.ctx i).timer := fun h =>
      Bool.eq_false_iff.mp hd (Ctx.dueOnTick_iff.mpr ⟨ht, h⟩)
    have hc := State.ctx_aged hi ht
    rw [tickCtx_of_timed ht, tickDeadline_eq i _ (by rw [hc]; exact ht), hc]
    exact if_neg hlimit

end

/-! ### What a turn emits, and what it makes of the session -/

/-- From s to t the outputs l are emitted; among them is a REQ_OPEN exactly when a closed session is opened, and the
session changes in no other way (R261, R309). -/
structure Emitted (l : List Output) (s t : State) : Prop where
  out : t.out = s.out ++ l
  session : (t.link = s.link ∧ .reqOpen ∉ l) ∨ (s.link = .down ∧ t.link = .opening ∧ .reqOpen ∈ l)

theorem Emitted.refl (s : State) : Emitted [] s s := ⟨(List.append_nil _).symm, .inl ⟨rfl, nofun⟩⟩

theorem Emitted.trans {l m : List Output} {s t u : State} (h : Emitted l s t) (k : Emitted m t u) :
    Emitted (l ++ m) s u := by
  refine ⟨by rw [k.out, h.out, List.append_assoc], ?_⟩
  rcases h.session with ⟨hl, hn⟩ | ⟨hd, ho, hm⟩
  · rcases k.session with ⟨kl, kn⟩ | ⟨kd, ko, km⟩
    · exact .inl ⟨kl.trans hl, fun hmem => (List.mem_append.mp hmem).elim hn kn⟩
    · exact .inr ⟨hl ▸ kd, ko, List.mem_append_right _ km⟩
  · rcases k.session with ⟨kl, -⟩ | ⟨kd, -, -⟩
    · exact .inr ⟨hd, kl.trans ho, List.mem_append_left _ hm⟩
    · rw [ho] at kd; cases kd

/-- A session that is open or opening stays as it is. -/
theorem Emitted.link_eq {l : List Output} {s t : State} (h : Emitted l s t) (hl : s.link ≠ .down) :
    t.link = s.link ∧ .reqOpen ∉ l := by
  rcases h.session with h | ⟨hd, -, -⟩
  · exact h
  · exact absurd hd hl

theorem Emitted.link_ne_up {l : List Output} {s t : State} (h : Emitted l s t) (hl : s.link ≠ .up) : t.link ≠ .up := by
  rcases h.session with ⟨h, -⟩ | ⟨-, h, -⟩
  · rwa [h]
  · rw [h]; exact nofun

/-- Nothing but a context or the receive side's registers differ. -/
theorem Emitted.silent {s t : State} (ho : t.out = s.out := by rfl) (hl : t.link = s.link := by rfl) : Emitted [] s t :=
  ⟨ho.trans (List.append_nil _).symm, .inl ⟨hl, nofun⟩⟩

section
variable {s : State} {i : Nat}

/-- `sending!` (R261). -/
theorem emitted_sendAttempt (hi : i < s.ctxs.length) : ∃ l, l.length ≤ 1 ∧ Emitted l s (sendAttempt i s) := by
  cases hl : s.link with
  | down => exact ⟨[.reqOpen], Nat.le_refl 1, by rw [sendAttempt_down i s hl]; exact ⟨rfl, .inr ⟨hl, rfl, by simp⟩⟩⟩
  | opening => exact ⟨[], Nat.zero_le 1, by rw [sendAttempt_opening i s hl]; exact .silent⟩
  | up =>
    cases hk : s.kind with
    | tcp => exact ⟨[_], Nat.le_refl 1, by rw [sendAttempt_tcp i s hl hk hi]; exact ⟨rfl, .inl ⟨rfl, by simp⟩⟩⟩
    | rtu =>
      cases hd : s.rxDiscard with
      | true => exact ⟨[], Nat.zero_le 1, by rw [sendAttempt_resync i s hl hk hd]; exact .silent⟩
      | false => exact ⟨[_], Nat.le_refl 1, by rw [sendAttempt_rtu i s hl hk hd hi]; exact ⟨rfl, .inl ⟨rfl, by simp⟩⟩⟩

/-- `attempt_fail!` (R262). -/
theorem emitted_attemptFail (err : Status) (hi : i < s.ctxs.length) :
    ∃ l, l.length ≤ 1 ∧ Emitted l s (attemptFail i err s) := by
  by_cases hr : retryable err = true ∧ (s.ctx i).attempt < (s.ctx i).cfg.maxRetries
  · by_cases hb : (s.ctx i).cfg.retryBackoffMs = 0
    · obtain ⟨l, hl, h⟩ := emitted_sendAttempt (s := s.modCtx i (retriedCtx err)) (i := i) (by simpa using hi)
      exact ⟨l, hl, by rw [attemptFail_resend i err s hi hr hb]; exact .trans (l := []) .silent h⟩
    · exact ⟨[], Nat.zero_le 1, by rw [attemptFail_backoff i err s hi hr hb]; exact .silent⟩
  · exact ⟨[plainResult (s.ctx i).handle err 0], Nat.le_refl 1, by
      rw [attemptFail_end i err s hi hr]; exact ⟨rfl, .inl ⟨rfl, by simp [plainResult]⟩⟩⟩

/-- Every deadline (R271 to R274, R277). -/
theorem emitted_deadlineOf (p : Phase) (hi : i < s.ctxs.length) :
    ∃ l, l.length ≤ 1 ∧ Emitted l s (deadlineOf p i s) := by
  have hnone : ∃ l, l.length ≤ 1 ∧ Emitted l s s := ⟨[], Nat.zero_le 1, .refl s⟩
  cases p with
  | awaitingResponse =>
    have hlen : i < (expireTxn i (s.setPhase i .timedOut)).ctxs.length := by
      rw [expireTxn_eq]; simpa using hi
    obtain ⟨l, hl, h⟩ := emitted_attemptFail .timeout hlen
    exact ⟨l, hl, .trans (l := []) (.silent (by rw [expireTxn_eq]; rfl) (by rw [expireTxn_eq]; rfl)) h⟩
  | backoff => exact emitted_sendAttempt hi
  | resyncWait =>
    obtain ⟨l, hl, h⟩ := emitted_sendAttempt (s := s.endDiscard.bufClear) hi
    exact ⟨l, hl, .trans (l := []) .silent h⟩
  | linkWait => exact emitted_attemptFail _ hi
  | draining => exact ⟨[], Nat.zero_le 1, .silent⟩
  | _ => exact hnone

/-- A turn in TICK emits at most one output, and none when the context does not reach its limit. -/
theorem emitted_tickCtx (hi : i < s.ctxs.length) :
    ∃ l, l.length ≤ (if (s.ctx i).dueOnTick = true then 1 else 0) ∧ Emitted l s (tickCtx i s) := by
  cases hd : (s.ctx i).dueOnTick with
  | false => exact ⟨[], Nat.zero_le _, by rw [tickCtx_of_not_due hi hd]; exact .silent⟩
  | true =>
    obtain ⟨l, hl, h⟩ := emitted_deadlineOf (s := s.modCtx i agedCtx) (s.ctx i).phase (by simpa using hi)
    exact ⟨l, by simpa using hl, by rw [tickCtx_of_due hi hd]; exact .trans (l := []) .silent h⟩

end

/-! ### The loop -/

/-- From one turn to a later one TICK emits no more outputs than contexts that reach their limit. -/
theorem emitted_turns (s : State) {j k : Nat} (hjk : j ≤ k) (hk : k ≤ s.ctxs.length) :
    ∃ l, l.length ≤ (s.ctxs.take k).countP Ctx.dueOnTick ∧
      Emitted l (s.beforeTurn tickCtx j) (s.beforeTurn tickCtx k) := by
  induction k, hjk using Nat.le_induction with
  | base => exact ⟨[], Nat.zero_le _, .refl _⟩
  | succ k _ ih =>
    have hbefore := State.beforeTurn_frame turn_tickCtx s k
    obtain ⟨l, hl, h⟩ := ih (by omega)
    obtain ⟨m, hm, hturn⟩ := emitted_tickCtx (s := s.beforeTurn tickCtx k) (i := k) (hbefore.length ▸ hk)
    rw [hbefore.later k (Nat.le_refl k)] at hm
    refine ⟨l ++ m, ?_, by rw [State.beforeTurn_succ]; exact h.trans hturn⟩
    rw [take_succ_ctx hk, List.countP_append, List.countP_singleton, List.length_append]
    exact Nat.add_le_add hl hm

/-- TICK from s to t, seen from context i: u is the state before its turn, which finds the context as it was. -/
structure TickTurn (i : Nat) (s u t : State) : Prop where
  kind : u.kind = s.kind
  length : u.ctxs.length = s.ctxs.length
  same : u.ctx i = s.ctx i
  sole : i = 0 → u = s
  before : ∃ l, Emitted l s u
  after : ∃ l, Emitted l (tickCtx i u) t
  ctx : t.ctx i = (tickCtx i u).ctx i

theorem onTick_turn {s : State} {i : Nat} (hi : i < s.ctxs.length) : ∃ u, TickTurn i s u (onTick s) := by
  have hbefore := State.beforeTurn_frame turn_tickCtx s i
  obtain ⟨l, -, hl⟩ := emitted_turns s (Nat.zero_le i) (Nat.le_of_lt hi)
  obtain ⟨m, -, hm⟩ := emitted_turns s (Nat.succ_le_of_lt hi) (Nat.le_refl _)
  obtain ⟨hctx, hsame⟩ := State.forCtx_ctx turn_tickCtx s hi
  refine ⟨s.beforeTurn tickCtx i, hbefore.kind, hbefore.length, hsame, ?_, ⟨l, hl⟩, ⟨m, ?_⟩, hctx⟩
  · rintro rfl
    rfl
  · rwa [State.beforeTurn_succ] at hm

/-- Every output of a context's turn is one of the step's. -/
theorem TickTurn.mem_out {i : Nat} {s u t : State} (h : TickTurn i s u t) {o : Output} (ho : o ∈ (tickCtx i u).out) :
    o ∈ t.out := by
  obtain ⟨l, hl⟩ := h.after
  rw [hl.out]
  exact List.mem_append_left _ ho

theorem TickTurn.emitted {i : Nat} {s u t : State} (h : TickTurn i s u t) (hi : i < s.ctxs.length) :
    ∃ l, Emitted l s t := by
  obtain ⟨l, hl⟩ := h.before
  obtain ⟨m, -, hm⟩ := emitted_tickCtx (s := u) (i := i) (h.length.symm ▸ hi)
  obtain ⟨n, hn⟩ := h.after
  exact ⟨_, (hl.trans hm).trans hn⟩

/-- A loop whose turns each make the same update of their context updates the whole table. -/
theorem State.forCtx_map {f : Nat → State → State} {g : Ctx → Ctx} {s : State}
    (hf : ∀ i t, i < s.ctxs.length → t.ctxs.length = s.ctxs.length → t.ctx i = s.ctx i → f i t = t.modCtx i g) :
    s.forCtx f = { s with ctxs := s.ctxs.map g } := by
  have hstart : s.ctxs.mapIdx (fun j c => if j < 0 then g c else c) = s.ctxs := List.ext_getElem? fun j => by simp
  have hall := State.forCtx_index
    (fun k t => t = { s with ctxs := s.ctxs.mapIdx fun j c => if j < k then g c else c }) f s
    (by rw [hstart]) fun i t hi ht => by
      have hctx : t.ctx i = s.ctx i := by
        subst ht
        exact State.ctx_eq_of_getElem? (by simp [State.getElem?_ctx hi])
      rw [hf i t hi (by simp [ht]) hctx, State.modCtx, ht]
      refine congrArg (fun cs => { s with ctxs := cs }) (List.ext_getElem? fun j => ?_)
      rw [List.getElem?_modify, List.getElem?_mapIdx, List.getElem?_mapIdx]
      rcases Nat.lt_trichotomy j i with hj | rfl | hj
      · simp [hj, Nat.lt_succ_of_lt hj, Nat.ne_of_gt hj]
      · simp
      · simp [Nat.not_lt_of_gt hj, Nat.ne_of_lt hj, show ¬ j < i + 1 by omega]
  have hend : s.ctxs.mapIdx (fun j c => if j < s.ctxs.length then g c else c) = s.ctxs.map g :=
    List.ext_getElem (by simp) fun j hj _ => by
      have hj : j < s.ctxs.length := by simpa using hj
      simp [hj]
  rw [hall, hend]

section
variable {s : State}

theorem exec_evTick (hl : s.legal = true) : exec .evTick s = .next (onTick s.begin) := runEvent_legal hl

/-- When no context reaches its limit every timer advances, and nothing else happens (R270). -/
theorem onTick_of_none_due (hd : ∀ c ∈ s.ctxs, c.dueOnTick = false) :
    onTick s = { s with ctxs := s.ctxs.map agedCtx } :=
  State.forCtx_map fun i _ hi hlen hc =>
    tickCtx_of_not_due (hlen.symm ▸ hi) (by rw [hc]; exact hd _ (State.ctx_mem hi))

end

/-- Below the limit the timer does not saturate. -/
theorem agedCtx_of_not_due {c : Ctx} (hd : c.dueOnTick = false) :
    agedCtx c = if isTimed c.phase = true then { c with timer := c.timer + 1 } else c := by
  unfold agedCtx
  split
  · rename_i ht
    rw [Ctx.ticked, timerNext_of_lt (l := c.limit)]
    simpa [Ctx.dueOnTick, ht] using hd
  · rfl

/-- Settles O38: each context takes its own turn, which emits nothing below the limit. -/
theorem tickAdvancesTimers : Obligations.TickAdvancesTimers := by
  intro s hl
  have haged : ∀ {i}, i < s.ctxs.length → (s.ctx i).dueOnTick = false →
      (onTick s.begin).ctx i = agedCtx (s.ctx i) := by
    intro i hi hd
    obtain ⟨u, h⟩ := onTick_turn (s := s.begin) hi
    have hlen : i < u.ctxs.length := h.length.symm ▸ hi
    have hsame : u.ctx i = s.ctx i := h.same
    rw [h.ctx, tickCtx_of_not_due hlen (hsame ▸ hd), State.ctx_modCtx_same u i _ hlen, hsame]
  refine ⟨_, exec_evTick hl, (State.beforeTurn_frame turn_tickCtx s.begin _).length, fun i hi ht hlt => ?_,
    fun i hi hp => ?_, ?_, fun hnone => ?_⟩
  · have hd : (s.ctx i).dueOnTick = false := by simp [Ctx.dueOnTick, hlt]
    rw [haged hi hd, agedCtx_of_timed ht, Ctx.ticked, timerNext_of_lt hlt]
  · have ht : isTimed (s.ctx i).phase = false := by rw [hp]; rfl
    rw [haged hi (by simp [Ctx.dueOnTick, ht]), agedCtx_of_untimed ht]
  · obtain ⟨l, hlen, h⟩ := emitted_turns s.begin (Nat.zero_le _) (Nat.le_refl _)
    have hout : (onTick s.begin).out = l := h.out
    rw [hout]
    simpa using hlen
  · rw [onTick_of_none_due (s := s.begin) hnone]
    refine ⟨rfl, congrArg (fun cs => { s.block with ctxs := cs }) (List.map_congr_left fun c hc => ?_)⟩
    exact agedCtx_of_not_due (hnone c hc)

end Sys2Proof.Machine
end

section
/-! SUPPORT. What a deadline does to its context: the failure of the attempt, or `sending!` (45_engine R261, R262,
R271). -/

namespace Sys2Proof.Machine

theorem Ctx.due_of_timeout {c : Ctx} (ht : isTimed c.phase = true) (hb : c.phase ≠ .backoff)
    (hle : c.cfg.timeoutMs.toNat ≤ c.timer.toNat + 1) : c.dueOnTick = true := by
  simp [Ctx.dueOnTick, Ctx.limit, ht, hb, hle]

theorem Ctx.due_of_backoff {c : Ctx} (hp : c.phase = .backoff)
    (hle : c.cfg.retryBackoffMs.toNat ≤ c.timer.toNat + 1) : c.dueOnTick = true := by
  simp [Ctx.dueOnTick, Ctx.limit, isTimed, hp, hle]

theorem Ctx.retriesNow_of_not_hasRetry {c : Ctx} (h : c.hasRetry = false) : c.retriesNow = false := by
  simp [Ctx.retriesNow, h]

theorem failedResult_of_not_hasRetry (err : Status) {c : Ctx} (h : c.hasRetry = false) :
    failedResult err c = some (plainResult c.handle err 0) := if_neg (Bool.eq_false_iff.mp h)

section
variable {s : State} {i : Nat}

/-- `sending!` where it transmits, whatever the kind: the latched request is sent with some id, which is 0 on RTU
(R261). -/
theorem sendAttempt_transmits (hi : i < s.ctxs.length) (hl : s.link = .up) (hd : s.kind = .rtu → s.rxDiscard = false) :
    ∃ tid, (sendAttempt i s).ctx i = sentCtx tid (s.ctx i) ∧
      (sendAttempt i s).out = s.out ++ [.txFrame (encodeFrame (s.ctx i).req s.kind tid)] ∧
      (s.kind = .rtu → tid = 0) := by
  cases hk : s.kind with
  | tcp =>
    rw [sendAttempt_tcp i s hl hk hi]
    exact ⟨s.nextTid, State.ctx_modCtx_same s i (sentCtx s.nextTid) hi, rfl, nofun⟩
  | rtu =>
    rw [sendAttempt_rtu i s hl hk (hd hk) hi]
    exact ⟨0, State.ctx_modCtx_same s i (sentCtx 0) hi, rfl, fun _ => rfl⟩

/-- `sending!` during an RTU resync (R261). -/
theorem sendAttempt_resync_ctx (hi : i < s.ctxs.length) (hl : s.link = .up) (hk : s.kind = .rtu)
    (hd : s.rxDiscard = true) : (sendAttempt i s).ctx i = { s.ctx i with phase := .resyncWait, timer := 0 } := by
  rw [sendAttempt_resync i s hl hk hd]
  exact State.ctx_modCtx_same s i _ hi

/-- `sending!` where the session is not open (R261). -/
theorem sendAttempt_not_up (hi : i < s.ctxs.length) (hl : s.link ≠ .up) :
    (sendAttempt i s).ctx i = { s.ctx i with phase := .linkWait, timer := 0 } ∧ (sendAttempt i s).link = .opening := by
  have hctx := State.ctx_modCtx_same s i (fun c => { c with phase := .linkWait, timer := 0 }) hi
  cases hlink : s.link with
  | up => exact absurd hlink hl
  | down => rw [sendAttempt_down i s hlink]; exact ⟨hctx, rfl⟩
  | opening => rw [sendAttempt_opening i s hlink]; exact ⟨hctx, hlink⟩

/-- What a failed attempt on an open line emits: the retry's frame or the RESULT, if either (R262, R261). -/
def openFailureOut (err : Status) (k : Kind) (tid : Tid) (c : Ctx) : List Output :=
  if c.retriesNow = true then [.txFrame (encodeFrame c.req k tid)] else (failedResult err c).toList

/-- A failed attempt on an open line: its retry, if it is not backed off, is sent (R262, R261). -/
theorem attemptFail_on_open {err : Status} (he : retryable err = true) (hi : i < s.ctxs.length) (hl : s.link = .up)
    (hd : s.kind = .rtu → s.rxDiscard = false) (hx : (s.ctx i).txn = .none ∨ (s.ctx i).txn = .pending) :
    ∃ tid, (attemptFail i err s).ctx i = failedOpenCtx err tid (s.ctx i) ∧
      (attemptFail i err s).out = s.out ++ openFailureOut err s.kind tid (s.ctx i) ∧ (s.kind = .rtu → tid = 0) := by
  cases hn : (s.ctx i).retriesNow with
  | true =>
    obtain ⟨hr, hb⟩ := Ctx.retriesNow_iff.mp hn
    obtain ⟨tid, hctx, hout, htid⟩ :=
      sendAttempt_transmits (s := s.modCtx i (retriedCtx err)) (i := i) (by simpa using hi) hl hd
    rw [State.ctx_modCtx_same s i _ hi] at hctx hout
    rw [attemptFail_resend i err s hi ⟨he, Ctx.hasRetry_iff.mp hr⟩ hb]
    exact ⟨tid, hctx.trans (if_pos hn).symm, hout.trans (congrArg _ (if_pos hn).symm), htid⟩
  | false =>
    rw [attemptFail_waits he hi hx (p := .backoff) fun h => absurd (hn.symm.trans h) nofun]
    refine ⟨0, ?_, by simp [openFailureOut, hn], fun _ => rfl⟩
    rw [failedOpenCtx, if_neg (by simp [hn])]
    exact State.ctx_modCtx_same s i (failedCtx err .backoff) hi

/-- A context as its response deadline leaves it to the failure of the attempt (R271, R237). -/
def expiredCtx (c : Ctx) : Ctx := { c with phase := .timedOut, txn := .none }

theorem deadlineAwait_eq (i : Nat) (s : State) :
    deadlineAwait i s = attemptFail i .timeout (s.modCtx i expiredCtx) := by
  rw [deadlineAwait, expireTxn_eq, State.setPhase, State.modCtx_modCtx]
  rfl

/-- The response deadline on an open line (R271, R262). -/
theorem deadlineAwait_on_open (hi : i < s.ctxs.length) (hl : s.link = .up) (hd : s.kind = .rtu → s.rxDiscard = false) :
    ∃ tid, (deadlineAwait i s).ctx i = failedOpenCtx .timeout tid (s.ctx i) ∧
      (deadlineAwait i s).out = s.out ++ openFailureOut .timeout s.kind tid (s.ctx i) ∧ (s.kind = .rtu → tid = 0) := by
  have hctx : (s.modCtx i expiredCtx).ctx i = expiredCtx (s.ctx i) := State.ctx_modCtx_same s i _ hi
  have hfail := attemptFail_on_open (s := s.modCtx i expiredCtx) (i := i) (err := .timeout) rfl (by simpa using hi) hl
    hd (.inl (by rw [hctx]; rfl))
  rw [hctx] at hfail
  rw [deadlineAwait_eq]
  exact hfail

/-- The id of a failed attempt only matters when its retry is sent. -/
theorem failedOpenCtx_tid (err : Status) (tid : Tid) (c : Ctx) :
    failedOpenCtx err (failedOpenCtx err tid c).tid c = failedOpenCtx err tid c := by
  unfold failedOpenCtx
  split <;> rfl

end

end Sys2Proof.Machine
end

section
/-! SUPPORT. The TICK that reaches a limit, seen from its context: the awaited response, the backoff, the session, the
resync and the drain (45_engine R270 to R274, R277). -/

namespace Sys2Proof.Machine

section
variable {s u t : State} {i : Nat}

/-- The turn of a context that reaches its limit, from the state u that the turns before it leave (R270). -/
theorem TickTurn.due (h : TickTurn i s u t) (hi : i < s.ctxs.length) (hd : (s.ctx i).dueOnTick = true) :
    tickCtx i u = deadlineOf (s.ctx i).phase i (u.modCtx i agedCtx) ∧
      (u.modCtx i agedCtx).ctx i = (s.ctx i).ticked ∧ i < (u.modCtx i agedCtx).ctxs.length := by
  have hlen : i < u.ctxs.length := h.length.symm ▸ hi
  have hsame := h.same
  rw [← hsame] at hd ⊢
  exact ⟨tickCtx_of_due hlen hd, State.ctx_aged hlen (Ctx.timed_of_due hd), by simpa using hlen⟩

theorem TickTurn.link_up (h : TickTurn i s u t) (hl : s.link = .up) : u.link = .up := by
  obtain ⟨l, hbefore⟩ := h.before
  exact (hbefore.link_eq (by rw [hl]; exact nofun)).1.trans hl

theorem TickTurn.link_ne_up (h : TickTurn i s u t) (hl : s.link ≠ .up) : u.link ≠ .up := by
  obtain ⟨l, hbefore⟩ := h.before
  exact hbefore.link_ne_up hl

/-- A session that a turn finds or leaves opening is opening after the step. -/
theorem TickTurn.opening (h : TickTurn i s u t) (hl : (tickCtx i u).link = .opening) : t.link = .opening := by
  obtain ⟨l, hafter⟩ := h.after
  exact (hafter.link_eq (by rw [hl]; exact nofun)).1.trans hl

/-- On RTU no turn comes before that of the one context. -/
theorem TickTurn.rxDiscard_rtu (h : TickTurn i s u t) (hs : s.Inv) (hi : i < s.ctxs.length) (hk : s.kind = .rtu) :
    u.rxDiscard = s.rxDiscard := by
  have hone := hs.length_rtu hk
  rw [h.sole (by omega)]

/-- A resync runs on RTU only (R35). -/
theorem State.Inv.rtu_of_discard (hs : s.Inv) (hd : s.rxDiscard = true) : s.kind = .rtu := by
  obtain ⟨-, -, -, -, -, htcp, -⟩ := hs.receive
  cases hk : s.kind with
  | rtu => rfl
  | tcp => rw [htcp hk] at hd; cases hd

end

/-- Settles O39: the turn of the awaiting context, on a session that is open and without a resync. -/
theorem tickResponseDeadline : Obligations.TickResponseDeadline := by
  intro s i hs hi hp hlimit
  obtain ⟨u, h⟩ := onTick_turn (s := s.begin) hi
  obtain ⟨hup, -, -, -, hquiet⟩ := hs.invBut.session i hi (by simp) hi
  obtain ⟨hturn, hctx, hlen⟩ :=
    h.due hi (Ctx.due_of_timeout (c := s.ctx i) (by rw [hp]; rfl) (by rw [hp]; exact nofun) hlimit)
  have hkind : u.kind = s.kind := h.kind
  have hline : u.kind = .rtu → u.rxDiscard = false := fun hk =>
    (h.rxDiscard_rtu (s := s.begin) hs hi (hkind ▸ hk)).trans (hquiet ⟨hkind ▸ hk, .inl hp⟩)
  obtain ⟨tid, hfailed, hout, htid⟩ :=
    deadlineAwait_on_open (s := u.modCtx i agedCtx) hlen (h.link_up (hup (.inl hp))) hline
  have hturn : tickCtx i u = deadlineAwait i (u.modCtx i agedCtx) := hturn.trans (by
    rw [show (s.begin.ctx i).phase = .awaitingResponse from hp]
    rfl)
  rw [← hturn, hctx] at hfailed hout
  have hthis : (onTick s.begin).ctx i = failedOpenCtx .timeout tid (s.ctx i) := h.ctx.trans hfailed
  have hmem : ∀ o ∈ openFailureOut .timeout s.kind tid (s.ctx i), o ∈ (onTick s.begin).out := fun o ho =>
    h.mem_out (by rw [hout]; exact List.mem_append_right _ (hkind ▸ ho))
  have hsent : (s.ctx i).retriesNow = true → ((onTick s.begin).ctx i).tid = tid := fun hn => by
    rw [hthis, failedOpenCtx, if_pos hn]
    rfl
  refine ⟨_, exec_evTick hs.legal, by rw [hthis, failedOpenCtx_tid], fun hn => ?_, fun hn hk => ?_, fun hr => ?_⟩
  · rw [hsent hn]
    exact hmem _ (by simp [openFailureOut, hn])
  · rw [hsent hn]
    exact htid (hkind.trans hk)
  · refine hmem _ ?_
    simp [openFailureOut, Ctx.retriesNow_of_not_hasRetry hr, failedResult_of_not_hasRetry _ hr, plainResult]

/-- Settles O40: the turn of the context that backed off is `sending!` of its latched request. -/
theorem tickBackoffEnds : Obligations.TickBackoffEnds := by
  intro s i hs hi hp hlimit
  obtain ⟨u, h⟩ := onTick_turn (s := s.begin) hi
  obtain ⟨hturn, hctx, hlen⟩ := h.due hi (Ctx.due_of_backoff (c := s.ctx i) hp hlimit)
  have hkind : u.kind = s.kind := h.kind
  have hturn : tickCtx i u = sendAttempt i (u.modCtx i agedCtx) := hturn.trans (by
    rw [show (s.begin.ctx i).phase = .backoff from hp]
    rfl)
  have hwaits : s.link ≠ .up → (onTick s.begin).ctx i = { s.ctx i with phase := .linkWait, timer := 0 } ∧
      (onTick s.begin).link = .opening := fun hl => by
    obtain ⟨hwait, hopening⟩ := sendAttempt_not_up (s := u.modCtx i agedCtx) hlen (h.link_ne_up hl)
    rw [← hturn] at hwait hopening
    exact ⟨h.ctx.trans (hwait.trans (by rw [hctx]; rfl)), h.opening hopening⟩
  refine ⟨_, exec_evTick hs.legal, fun hl hd => ?_, fun hl hd => ?_, hwaits, fun hl => ?_⟩
  · have hline : u.kind = .rtu → u.rxDiscard = false := fun hk =>
      (h.rxDiscard_rtu (s := s.begin) hs hi (hkind ▸ hk)).trans hd
    obtain ⟨tid, hsent, hout, -⟩ := sendAttempt_transmits (s := u.modCtx i agedCtx) hlen (h.link_up hl) hline
    rw [← hturn, hctx] at hsent hout
    have hthis : (onTick s.begin).ctx i = sentCtx tid (s.ctx i) := h.ctx.trans hsent
    refine ⟨by rw [hthis]; rfl, h.mem_out ?_⟩
    rw [hout, hthis, ← hkind]
    exact List.mem_append_right _ (List.mem_singleton.mpr rfl)
  · have hk := hs.rtu_of_discard hd
    have hline : u.rxDiscard = true := (h.rxDiscard_rtu (s := s.begin) hs hi hk).trans hd
    have hwait := sendAttempt_resync_ctx (s := u.modCtx i agedCtx) hlen (h.link_up hl) (hkind.trans hk) hline
    rw [← hturn, hctx] at hwait
    exact h.ctx.trans hwait
  · obtain ⟨l, hall⟩ := h.emitted hi
    rcases hall.session with ⟨hkept, -⟩ | ⟨-, -, hreq⟩
    · have hopened := (hwaits (by rw [hl]; exact nofun)).2
      rw [hkept, show s.begin.link = .down from hl] at hopened
      cases hopened
    · rw [hall.out]
      exact List.mem_append_right _ hreq

/-- Settles O42: the turn of the context that waited for the session, which stays opening through the whole step. -/
theorem tickLinkWaitDeadline : Obligations.TickLinkWaitDeadline := by
  intro s i hs hi hp hlimit
  obtain ⟨u, h⟩ := onTick_turn (s := s.begin) hi
  obtain ⟨hturn, hctx, hlen⟩ :=
    h.due hi (Ctx.due_of_timeout (c := s.ctx i) (by rw [hp]; rfl) (by rw [hp]; exact nofun) hlimit)
  have hturn : tickCtx i u = attemptFail i .connectionError (u.modCtx i agedCtx) := hturn.trans (by
    rw [show (s.begin.ctx i).phase = .linkWait from hp]
    rfl)
  have hopening : s.link = .opening := (hs.invBut.session i hi (by simp) hi).2.1 hp
  obtain ⟨l, hall⟩ := h.emitted hi
  obtain ⟨hlink, hnoreq⟩ := hall.link_eq (by rw [show s.begin.link = .opening from hopening]; exact nofun)
  have hfail := attemptFail_not_up (s := u.modCtx i agedCtx) (i := i) (err := .connectionError) rfl hlen
    (by rw [hctx]; exact (hs.invBut.own i hi (by simp)).txn.1)
    (h.link_ne_up (by rw [show s.begin.link = .opening from hopening]; exact nofun))
  rw [← hturn, hctx] at hfail
  refine ⟨_, exec_evTick hs.legal, ?_, hlink.trans hopening, by rw [hall.out]; exact hnoreq, fun hr => h.mem_out ?_⟩
  · rw [h.ctx, hfail]
    refine (State.ctx_modCtx_same (u.modCtx i agedCtx) i (failedCtx .connectionError .linkWait) hlen).trans ?_
    rw [hctx]
    rfl
  · have hr : (s.begin.ctx i).ticked.hasRetry = false := hr
    rw [hfail, turnOutput, Ctx.retriesNow_of_not_hasRetry hr, failedResult_of_not_hasRetry _ hr]
    exact List.mem_append_right _ (List.mem_singleton.mpr rfl)

section
variable {s : State}

theorem State.length_pos_of_tableOk (ht : s.tableOk = true) : 0 < s.ctxs.length := by
  cases hk : s.kind with
  | rtu => rw [State.length_of_rtu ht hk]; decide
  | tcp =>
    simp only [State.tableOk, hk, Bool.and_eq_true, decide_eq_true_eq] at ht
    exact ht.1

theorem State.Inv.length_pos (hs : s.Inv) : 0 < s.ctxs.length := State.length_pos_of_tableOk hs.invBut.table

/-- On RTU the TICK that reaches the limit is the deadline of the one context. -/
theorem onTick_rtu_due (hs : s.Inv) (hk : s.kind = .rtu) (hd : (s.ctx 0).dueOnTick = true) :
    onTick s = deadlineOf (s.ctx 0).phase 0 (s.modCtx 0 agedCtx) :=
  (State.forCtx_sole (hs.length_rtu hk) tickCtx).trans (tickCtx_of_due hs.length_pos hd)

/-- An update of the one context of an RTU table after its timer advanced. -/
theorem State.Inv.modify_aged (hs : s.Inv) (hk : s.kind = .rtu) (hd : (s.ctx 0).dueOnTick = true) (g : Ctx → Ctx) :
    (s.ctxs.modify 0 agedCtx).modify 0 g = [g (s.ctx 0).ticked] := by
  rw [hs.modify_sole hk, agedCtx_of_timed (Ctx.timed_of_due hd)]
  rfl

end

/-- Settles O41: the turn of the one RTU context. -/
theorem tickRtuDeadlines : Obligations.TickRtuDeadlines := by
  intro s hs hlimit
  have h0 := hs.length_pos
  obtain ⟨-, -, hresync, hdrain, -⟩ := hs.invBut.session 0 h0 (by simp) h0
  refine ⟨fun hp => ?_, fun hp => ?_⟩
  · obtain ⟨hk, hd⟩ := hresync hp
    obtain ⟨-, -, -, -, -, -, hopen⟩ := hs.receive
    have hdue := Ctx.due_of_timeout (c := s.ctx 0) (by rw [hp]; rfl) (by rw [hp]; exact nofun) hlimit
    have hctx : (s.begin.modCtx 0 agedCtx).ctx 0 = (s.ctx 0).ticked :=
      State.ctx_aged (s := s.begin) h0 (Ctx.timed_of_due hdue)
    have hsend := sendAttempt_rtu 0 (s.begin.modCtx 0 agedCtx).endDiscard.bufClear (hopen hd).1 hk rfl
      (by simpa using h0)
    have htick : onTick s.begin = sendAttempt 0 (s.begin.modCtx 0 agedCtx).endDiscard.bufClear :=
      (onTick_rtu_due (s := s.begin) hs hk hdue).trans (by
        rw [show (s.begin.ctx 0).phase = .resyncWait from hp]
        rfl)
    have hout : [Output.txFrame (encodeFrame ((s.begin.modCtx 0 agedCtx).ctx 0).req .rtu 0)] =
        [.txFrame (encodeFrame (s.ctx 0).req .rtu 0)] := by
      rw [hctx]
      rfl
    exact ⟨_, (exec_evTick hs.legal).trans (congrArg _ (htick.trans hsend)), hout,
      congrArg (fun cs => { s.block with rxDiscard := false, rxlen := 0, ctxs := cs })
        (hs.modify_aged hk hdue (sentCtx 0))⟩
  · have hdue := Ctx.due_of_timeout (c := s.ctx 0) (by rw [hp]; rfl) (by rw [hp]; exact nofun) hlimit
    have htick : onTick s.begin = release 0 (s.begin.modCtx 0 agedCtx) :=
      (onTick_rtu_due (s := s.begin) hs (hdrain hp) hdue).trans (by
        rw [show (s.begin.ctx 0).phase = .draining from hp]
        rfl)
    exact ⟨_, (exec_evTick hs.legal).trans (congrArg _ htick), rfl,
      congrArg (fun cs => { s.block with ctxs := cs }) (hs.modify_aged (hdrain hp) hdue releasedCtx)⟩

end Sys2Proof.Machine
end

section
/-! SUPPORT. An execute that no response ends, alone in the table of an open session: TICK after TICK to its RESULT
Timeout (45_engine R262, R271, R272, R281). -/

namespace Sys2Proof.Machine

/-! ### What is left of an unanswered execute -/

/-- The retries an execute has left (R262). -/
def Ctx.retriesLeft (c : Ctx) : Nat := c.cfg.maxRetries.toNat - c.attempt.toNat

/-- The TICKs left until the RESULT of an execute that no response ends (R281). -/
def Ctx.ticksLeft (c : Ctx) : Nat :=
  (c.limit.toNat - c.timer.toNat) + (if c.phase = .backoff then c.cfg.timeoutMs.toNat else 0) +
    c.retriesLeft * (c.cfg.timeoutMs.toNat + c.cfg.retryBackoffMs.toNat)

/-- The frames it still sends (R281). -/
def Ctx.framesLeft (c : Ctx) : Nat := (if c.phase = .backoff then 1 else 0) + c.retriesLeft

/-- An execute under way whose response or backoff is not overdue. -/
structure Ctx.Unanswered (h : Handle) (c : Ctx) : Prop where
  handle : c.handle = h
  phase : c.phase = .awaitingResponse ∨ c.phase = .backoff
  timeout : 0 < c.cfg.timeoutMs.toNat
  ahead : c.timer.toNat < c.limit.toNat

/-- A TICK that makes c of an execute into c' and sends n frames. -/
structure Ctx.Counts (h : Handle) (n : Nat) (c c' : Ctx) : Prop where
  unanswered : c'.Unanswered h
  ticks : c'.ticksLeft + 1 = c.ticksLeft
  frames : n + c'.framesLeft = c.framesLeft

section
variable {h : Handle} {c : Ctx}

theorem Ctx.Unanswered.timed (hc : c.Unanswered h) : isTimed c.phase = true := by
  rcases hc.phase with hp | hp <;> rw [hp] <;> rfl

theorem Ctx.Unanswered.resting (hc : c.Unanswered h) : isResting c.phase = true := by
  rcases hc.phase with hp | hp <;> rw [hp] <;> rfl

/-- One TICK is left of the phase that is due. -/
theorem Ctx.Unanswered.due_iff (hc : c.Unanswered h) : c.dueOnTick = true ↔ c.limit.toNat = c.timer.toNat + 1 := by
  have hahead := hc.ahead
  simp only [Ctx.dueOnTick, hc.timed, Bool.true_and, decide_eq_true_eq]
  omega

/-- A TICK below the limit. -/
theorem Ctx.Unanswered.counts_ticked (hc : c.Unanswered h) (hd : c.dueOnTick = false) : Ctx.Counts h 0 c c.ticked := by
  have hlt : c.timer.toNat + 1 < c.limit.toNat := by
    have hne : ¬ c.limit.toNat = c.timer.toNat + 1 := fun e => Bool.eq_false_iff.mp hd (hc.due_iff.mpr e)
    have hahead := hc.ahead
    omega
  have htimer : c.ticked.timer.toNat = c.timer.toNat + 1 := by
    have hmax := c.limit.isLt
    rw [Ctx.ticked, timerNext_toNat]
    omega
  have hlimit : c.ticked.limit = c.limit := rfl
  refine ⟨⟨hc.handle, hc.phase, hc.timeout, by rw [htimer, hlimit]; exact hlt⟩, ?_, Nat.zero_add _⟩
  have hrest : c.ticked.ticksLeft = (c.limit.toNat - (c.timer.toNat + 1)) +
      (if c.phase = .backoff then c.cfg.timeoutMs.toNat else 0) +
        c.retriesLeft * (c.cfg.timeoutMs.toNat + c.cfg.retryBackoffMs.toNat) := by
    rw [Ctx.ticksLeft, hlimit, htimer]
    rfl
  rw [hrest, Ctx.ticksLeft]
  omega

theorem Ctx.retriesLeft_of_hasRetry {c' : Ctx} (hr : c.hasRetry = true) (hm : c'.cfg = c.cfg)
    (ha : c'.attempt = c.attempt + 1) : c.retriesLeft = c'.retriesLeft + 1 := by
  have hlt : c.attempt.toNat < c.cfg.maxRetries.toNat := Ctx.hasRetry_iff.mp hr
  have hmax := c.cfg.maxRetries.isLt
  have hnext : (c.attempt + 1).toNat = c.attempt.toNat + 1 := by
    rw [BitVec.toNat_add, show (1 : Word32).toNat = 1 from rfl]
    omega
  rw [Ctx.retriesLeft, Ctx.retriesLeft, hm, ha, hnext]
  omega

theorem Ctx.retriesLeft_of_not_hasRetry (hr : c.hasRetry = false) : c.retriesLeft = 0 := by
  have hle : ¬ c.attempt.toNat < c.cfg.maxRetries.toNat := fun hlt =>
    Bool.eq_false_iff.mp hr (Ctx.hasRetry_iff.mpr hlt)
  exact Nat.sub_eq_zero_of_le (Nat.not_lt.mp hle)

/-- What is left of an awaited attempt, and of a backoff, on the TICK that ends it. -/
theorem Ctx.Unanswered.ticksLeft_due (hc : c.Unanswered h) (hd : c.dueOnTick = true) :
    c.ticksLeft = 1 + (if c.phase = .backoff then c.cfg.timeoutMs.toNat else 0) +
      c.retriesLeft * (c.cfg.timeoutMs.toNat + c.cfg.retryBackoffMs.toNat) := by
  have hlimit := hc.due_iff.mp hd
  rw [Ctx.ticksLeft, hlimit, Nat.add_sub_cancel_left]

/-- What is left of an attempt that was just sent. -/
theorem Ctx.ticksLeft_sent (tid : Tid) (c : Ctx) :
    (sentCtx tid c).ticksLeft = c.cfg.timeoutMs.toNat +
      c.retriesLeft * (c.cfg.timeoutMs.toNat + c.cfg.retryBackoffMs.toNat) := rfl

theorem Ctx.framesLeft_sent (tid : Tid) (c : Ctx) : (sentCtx tid c).framesLeft = c.retriesLeft := Nat.zero_add _

theorem Ctx.unanswered_sent (tid : Tid) (hh : c.handle = h) (ht : 0 < c.cfg.timeoutMs.toNat) :
    (sentCtx tid c).Unanswered h := ⟨hh, .inl rfl, ht, ht⟩

/-- The end of a backoff: the retry is sent (R272). -/
theorem Ctx.Unanswered.counts_sent (hc : c.Unanswered h) (hd : c.dueOnTick = true) (hp : c.phase = .backoff)
    (tid : Tid) : Ctx.Counts h 1 c (sentCtx tid c) := by
  refine ⟨Ctx.unanswered_sent tid hc.handle hc.timeout, ?_, ?_⟩
  · rw [hc.ticksLeft_due hd, Ctx.ticksLeft_sent, if_pos hp]
    omega
  · rw [Ctx.framesLeft_sent, Ctx.framesLeft, if_pos hp]

/-- A response deadline with a retry that is sent at once (R262). -/
theorem Ctx.Unanswered.counts_resent (hc : c.Unanswered h) (hd : c.dueOnTick = true) (hp : c.phase ≠ .backoff)
    (hn : c.retriesNow = true) (tid : Tid) : Ctx.Counts h 1 c (resentCtx .timeout tid c) := by
  obtain ⟨hr, hb⟩ := Ctx.retriesNow_iff.mp hn
  have hleft : c.retriesLeft = (resentCtx .timeout tid c).retriesLeft + 1 := Ctx.retriesLeft_of_hasRetry hr rfl rfl
  have hticks : (resentCtx .timeout tid c).ticksLeft = c.cfg.timeoutMs.toNat +
      (resentCtx .timeout tid c).retriesLeft * (c.cfg.timeoutMs.toNat + c.cfg.retryBackoffMs.toNat) := rfl
  refine ⟨Ctx.unanswered_sent tid hc.handle hc.timeout, ?_, ?_⟩
  · rw [hc.ticksLeft_due hd, hticks, if_neg hp, hleft, Nat.succ_mul, hb, show (0 : Word32).toNat = 0 from rfl]
    omega
  · have hframes : (resentCtx .timeout tid c).framesLeft = (resentCtx .timeout tid c).retriesLeft := Nat.zero_add _
    rw [hframes, Ctx.framesLeft, if_neg hp, hleft]
    omega

/-- A response deadline with a retry that backs off (R262). -/
theorem Ctx.Unanswered.counts_backedOff (hc : c.Unanswered h) (hd : c.dueOnTick = true) (hp : c.phase ≠ .backoff)
    (hr : c.hasRetry = true) (hb : c.cfg.retryBackoffMs ≠ 0) :
    Ctx.Counts h 0 c (failedCtx .timeout .backoff c) := by
  obtain ⟨c', hc', hcfg, hattempt, hphase, htimer, hhandle⟩ : ∃ c', failedCtx .timeout .backoff c = c' ∧
      c'.cfg = c.cfg ∧ c'.attempt = c.attempt + 1 ∧ c'.phase = .backoff ∧ c'.timer = 0 ∧ c'.handle = c.handle :=
    ⟨_, rfl, by simp [failedCtx, hr]⟩
  have hleft := Ctx.retriesLeft_of_hasRetry hr hcfg hattempt
  have hlimit : c'.limit = c.cfg.retryBackoffMs := (if_pos hphase).trans (by rw [hcfg])
  have hpos : 0 < c.cfg.retryBackoffMs.toNat := Nat.pos_of_ne_zero fun e => hb (BitVec.eq_of_toNat_eq e)
  rw [hc']
  refine ⟨⟨hhandle.trans hc.handle, .inr hphase, by rw [hcfg]; exact hc.timeout, ?_⟩, ?_, ?_⟩
  · rw [htimer, hlimit]
    exact hpos
  · rw [hc.ticksLeft_due hd, Ctx.ticksLeft, if_pos hphase, if_neg hp, hlimit, htimer, hcfg, hleft, Nat.succ_mul,
      show (0 : Word32).toNat = 0 from rfl]
    omega
  · rw [Ctx.framesLeft, Ctx.framesLeft, if_pos hphase, if_neg hp, hleft]
    omega

end

/-! ### The table around it -/

/-- A state of the machine on an open session without a resync, in which every context but the first is Idle. -/
structure State.Calm (s : State) : Prop where
  table : s.tableOk = true
  room : s.rxlen ≤ Config.rxbufCap
  up : s.link = .up
  quiet : s.rxDiscard = false
  others : ∀ j < s.ctxs.length, j ≠ 0 → (s.ctx j).phase = .idle

section
variable {s t : State} {h : Handle} {i : Nat}

theorem State.Calm.inTurn (hs : s.Calm) (ht : InTurn 0 s t) : t.Calm where
  table := (State.tableOk_congr ht.kind ht.length).trans hs.table
  room := by
    rcases ht.rxlen with e | e
    · rw [e]; exact hs.room
    · rw [e]; exact Nat.zero_le _
  up := ht.link_up hs.up
  quiet := ht.discard.trans hs.quiet
  others := fun j hj hne => by rw [ht.others j hne]; exact hs.others j (ht.length ▸ hj) hne

theorem State.Calm.length_pos (hs : s.Calm) : 0 < s.ctxs.length := State.length_pos_of_tableOk hs.table

theorem State.Calm.legal (hs : s.Calm) (hc : (s.ctx 0).Unanswered h) : s.legal = true := by
  refine (State.legal_iff s).mpr ⟨hs.table, fun c hmem => ?_, hs.room⟩
  obtain ⟨j, hj, rfl⟩ := State.exists_ctx_of_mem hmem
  by_cases h0 : j = 0
  · subst h0
    exact hc.resting
  · rw [hs.others j hj h0]
    rfl

/-- `attempt_fail!` (R262) starts or ends no resync, opens a session only from Down, and at most clears the buffer. -/
theorem inTurn_attemptFail (err : Status) (hi : i < s.ctxs.length) : InTurn i s (attemptFail i err s) := by
  by_cases hr : retryable err = true ∧ (s.ctx i).attempt < (s.ctx i).cfg.maxRetries
  · by_cases hb : (s.ctx i).cfg.retryBackoffMs = 0
    · rw [attemptFail_resend i err s hi hr hb]
      exact (inTurn_modCtx i _ s).trans (inTurn_sendAttempt (by simpa using hi))
    · rw [attemptFail_backoff i err s hi hr hb]
      exact inTurn_modCtx i _ s
  · rw [attemptFail_end i err s hi hr]
    exact (inTurn_emit i _ s).trans (inTurn_modCtx i _ _)

theorem inTurn_deadlineAwait (hi : i < s.ctxs.length) : InTurn i s (deadlineAwait i s) := by
  rw [deadlineAwait_eq]
  exact (inTurn_modCtx i _ s).trans (inTurn_attemptFail _ (by simpa using hi))

/-- A loop in which the turns after the first change nothing is its first turn. -/
theorem State.forCtx_first {f : Nat → State → State} (hf : ∀ i t, Turn i t (f i t)) (h0 : 0 < s.ctxs.length)
    (hrest : ∀ i t, i < s.ctxs.length → i ≠ 0 → t.ctx i = s.ctx i → f i t = t) : s.forCtx f = f 0 s := by
  have hall := State.forCtx_index (fun k t => t = if k = 0 then s else f 0 s) f s rfl fun i t hi ht => by
    by_cases hne : i = 0
    · subst hne
      rw [ht]
      rfl
    · rw [if_neg hne] at ht
      have hkept : t.ctx i = s.ctx i := by rw [ht]; exact (hf 0 s).others i hne
      rw [hrest i t hi hne hkept]
      exact ht
  rw [hall, if_neg (by omega)]

/-- With every other context Idle a TICK is the turn of the first. -/
theorem State.Calm.onTick_eq (hs : s.Calm) : onTick s = tickCtx 0 s :=
  State.forCtx_first turn_tickCtx hs.length_pos fun i t hi hne hkept =>
    if_neg (by rw [hkept, hs.others i hi hne]; exact nofun)

/-! ### One TICK -/

/-- What one TICK makes of an execute that no response ends, whose context was c: its RESULT Timeout, or one TICK less
and the frames that t sends. -/
inductive TickOutcome (h : Handle) (c : Ctx) (t : State) : Prop where
  | ends : c.ticksLeft = 1 → c.framesLeft = 0 → t.out = [plainResult h .timeout 0] → TickOutcome h c t
  | goesOn : t.Calm → Ctx.Counts h t.out.length c (t.ctx 0) → (∀ o ∈ t.out, o.isTxFrame = true) → TickOutcome h c t

/-- A TICK after which the context is c' and which sends the frames l. -/
theorem TickOutcome.of_sent {c c' : Ctx} {l : List Output} (ht : t.Calm) (hctx : t.ctx 0 = c') (hout : t.out = l)
    (hl : ∀ o ∈ l, o.isTxFrame = true) (hc : Ctx.Counts h l.length c c') : TickOutcome h c t :=
  .goesOn ht (by rw [hout, hctx]; exact hc) (by rw [hout]; exact hl)

/-- The response deadline of a context that was c before its timer advanced (R271, R262). -/
theorem State.Calm.deadlineAwait {c : Ctx} (hs : s.Calm) (hout : s.out = []) (hctx : s.ctx 0 = c.ticked)
    (hc : c.Unanswered h) (hd : c.dueOnTick = true) (hp : c.phase ≠ .backoff) :
    TickOutcome h c (deadlineAwait 0 s) := by
  have hcalm := hs.inTurn (inTurn_deadlineAwait hs.length_pos)
  obtain ⟨tid, hfailed, hemits, -⟩ := deadlineAwait_on_open hs.length_pos hs.up fun _ => hs.quiet
  rw [hctx] at hfailed hemits
  rw [hout, List.nil_append] at hemits
  have hfailed : (Machine.deadlineAwait 0 s).ctx 0 = failedOpenCtx .timeout tid c := hfailed
  have hemits : (Machine.deadlineAwait 0 s).out = openFailureOut .timeout s.kind tid c := hemits
  cases hr : c.hasRetry with
  | false =>
    have hnow := Ctx.retriesNow_of_not_hasRetry hr
    refine .ends ?_ ?_ ?_
    · rw [hc.ticksLeft_due hd, if_neg hp, Ctx.retriesLeft_of_not_hasRetry hr, Nat.zero_mul]
    · rw [Ctx.framesLeft, if_neg hp, Ctx.retriesLeft_of_not_hasRetry hr]
    · rw [hemits, openFailureOut, if_neg (by simp [hnow]), failedResult_of_not_hasRetry _ hr, hc.handle]
      rfl
  | true =>
    cases hn : c.retriesNow with
    | true =>
      exact .of_sent hcalm (hfailed.trans (if_pos hn)) (hemits.trans (if_pos hn)) (by simp [Output.isTxFrame])
        (hc.counts_resent hd hp hn tid)
    | false =>
      have hb : c.cfg.retryBackoffMs ≠ 0 := fun hb => Bool.eq_false_iff.mp hn (Ctx.retriesNow_iff.mpr ⟨hr, hb⟩)
      have hnone : openFailureOut .timeout s.kind tid c = [] := by
        rw [openFailureOut, if_neg (by simp [hn]), failedResult_of_hasRetry _ hr]
        rfl
      exact .of_sent hcalm (hfailed.trans (if_neg (by simp [hn]))) (hemits.trans hnone) nofun
        (hc.counts_backedOff hd hp hr hb)

/-- The end of the backoff of a context that was c before its timer advanced (R272). -/
theorem State.Calm.sendAttempt {c : Ctx} (hs : s.Calm) (hout : s.out = []) (hctx : s.ctx 0 = c.ticked)
    (hc : c.Unanswered h) (hd : c.dueOnTick = true) (hp : c.phase = .backoff) : TickOutcome h c (sendAttempt 0 s) := by
  obtain ⟨tid, hsent, hemits, -⟩ := sendAttempt_transmits hs.length_pos hs.up fun _ => hs.quiet
  rw [hctx] at hsent
  rw [hout] at hemits
  exact .of_sent (hs.inTurn (inTurn_sendAttempt hs.length_pos)) hsent hemits (by simp [Output.isTxFrame])
    (hc.counts_sent hd hp tid)

/-- One TICK of an execute that no response ends. -/
theorem State.Calm.exec_evTick (hs : s.Calm) (hc : (s.ctx 0).Unanswered h) :
    ∃ t, exec .evTick s = .next t ∧ TickOutcome h (s.ctx 0) t := by
  have h0 := hs.length_pos
  have hcalm : s.begin.Calm := ⟨hs.table, hs.room, hs.up, hs.quiet, hs.others⟩
  have haged : (s.begin.modCtx 0 agedCtx).Calm := hcalm.inTurn (inTurn_modCtx 0 _ _)
  have hctx : (s.begin.modCtx 0 agedCtx).ctx 0 = (s.ctx 0).ticked := State.ctx_aged (s := s.begin) h0 hc.timed
  refine ⟨_, (Machine.exec_evTick (hs.legal hc)).trans (congrArg _ hcalm.onTick_eq), ?_⟩
  cases hd : (s.ctx 0).dueOnTick with
  | false =>
    rw [tickCtx_of_not_due (s := s.begin) h0 hd]
    exact .of_sent haged hctx rfl nofun (hc.counts_ticked hd)
  | true =>
    rw [tickCtx_of_due (s := s.begin) h0 hd]
    rcases hc.phase with hp | hp
    · rw [show (s.begin.ctx 0).phase = .awaitingResponse from hp]
      exact haged.deadlineAwait rfl hctx hc hd (by rw [hp]; exact nofun)
    · rw [show (s.begin.ctx 0).phase = .backoff from hp]
      exact haged.sendAttempt rfl hctx hc hd hp

/-! ### TICK after TICK -/

/-- The outputs of some steps: k frames and nothing else, then in the last step r alone. -/
structure EndsAfter (r : Output) (k : Nat) (outs : List (List Output)) : Prop where
  last : outs.getLast? = some [r]
  count : outs.dropLast.flatten.length = k
  frames : ∀ o ∈ outs.dropLast.flatten, o.isTxFrame = true

theorem EndsAfter.single (r : Output) : EndsAfter r 0 [[r]] := ⟨rfl, rfl, nofun⟩

theorem EndsAfter.cons {r : Output} {k : Nat} {outs : List (List Output)} {l : List Output} (h : EndsAfter r k outs)
    (hl : ∀ o ∈ l, o.isTxFrame = true) : EndsAfter r (l.length + k) (l :: outs) := by
  have hne : outs ≠ [] := by
    rintro rfl
    exact absurd h.last nofun
  refine ⟨?_, ?_, ?_⟩
  · rw [List.getLast?_cons_of_ne_nil hne]
    exact h.last
  · rw [List.dropLast_cons_of_ne_nil hne, List.flatten_cons, List.length_append, h.count]
  · rw [List.dropLast_cons_of_ne_nil hne, List.flatten_cons]
    exact fun o ho => (List.mem_append.mp ho).elim (hl o) (h.frames o)

/-- The TICKs that are left of an execute that no response ends: the frames that are left, then RESULT Timeout. -/
theorem State.Calm.run_ticks (hs : s.Calm) (hc : (s.ctx 0).Unanswered h) :
    ∃ outs t, runInstrs (List.replicate (s.ctx 0).ticksLeft .evTick) s = some (outs, t) ∧
      EndsAfter (plainResult h .timeout 0) (s.ctx 0).framesLeft outs := by
  obtain ⟨n, hn⟩ : ∃ n, (s.ctx 0).ticksLeft = n := ⟨_, rfl⟩
  induction n generalizing s with
  | zero =>
    have hahead := hc.ahead
    rw [Ctx.ticksLeft] at hn
    omega
  | succ n ih =>
    obtain ⟨t, hstep, hout⟩ := hs.exec_evTick hc
    rw [hn, List.replicate_succ]
    cases hout with
    | ends hone hzero hres =>
      obtain rfl : n = 0 := by omega
      refine ⟨[t.out], t, runInstrs_cons hstep rfl, ?_⟩
      rw [hzero, hres]
      exact .single _
    | goesOn hcalm hcounts hframes =>
      have hleft : (t.ctx 0).ticksLeft = n := by have := hcounts.ticks; omega
      obtain ⟨outs, u, hrun, hends⟩ := ih hcalm hcounts.unanswered hleft
      rw [hleft] at hrun
      exact ⟨_, u, runInstrs_cons hstep hrun, hcounts.frames ▸ hends.cons hframes⟩

end

theorem Ctx.ticksLeft_accepted (tid : Tid) (c : Ctx) (h : Handle) (r : Req) (cfg : ExecCfg) :
    (sentCtx tid (acceptedCtx c h r cfg .sending)).ticksLeft =
      (1 + cfg.maxRetries.toNat) * cfg.timeoutMs.toNat + cfg.maxRetries.toNat * cfg.retryBackoffMs.toNat := by
  have hretries : (acceptedCtx c h r cfg .sending).retriesLeft = cfg.maxRetries.toNat := Nat.sub_zero _
  have hcfg : (acceptedCtx c h r cfg .sending).cfg = cfg := rfl
  rw [Ctx.ticksLeft_sent, hretries, hcfg]
  ring

theorem Ctx.framesLeft_accepted (tid : Tid) (c : Ctx) (h : Handle) (r : Req) (cfg : ExecCfg) :
    (sentCtx tid (acceptedCtx c h r cfg .sending)).framesLeft = cfg.maxRetries.toNat :=
  (Ctx.framesLeft_sent tid _).trans (Nat.sub_zero _)

/-- On an open session an EXECUTE into a table of Idle contexts sends its frame from the first. -/
theorem exec_evExecute_calm {s : State} {h : Handle} {r : Req} {cfg : ExecCfg} (hs : s.Calm) (hl : s.legal = true)
    (hv : validate r cfg = true) (hidle : ∀ c ∈ s.ctxs, c.phase = .idle) :
    ∃ t tid f, exec (.evExecute h r cfg) s = .next t ∧ t.Calm ∧ t.out = [.txFrame f] ∧
      t.ctx 0 = sentCtx tid (acceptedCtx (s.ctx 0) h r cfg .sending) := by
  have h0 := hs.length_pos
  have hstep := exec_evExecute_accepted (h := h) hl hv (fun c hc hp => absurd (hidle c hc) hp) h0
    (hidle _ (State.ctx_mem h0)) nofun
  have hacc : InTurn 0 s.begin (acceptExecute 0 h r cfg s.begin) := inTurn_modCtx 0 _ _
  have hlen : 0 < (acceptExecute 0 h r cfg s.begin).ctxs.length := hacc.length.symm ▸ h0
  have hcalm : s.begin.Calm := ⟨hs.table, hs.room, hs.up, hs.quiet, hs.others⟩
  obtain ⟨tid, hsent, hout, -⟩ := sendAttempt_transmits hlen hs.up fun _ => hs.quiet
  rw [acceptExecute_ctx (s := s.begin) h0] at hsent
  exact ⟨_, tid, _, hstep, hcalm.inTurn (hacc.trans (inTurn_sendAttempt hlen)), hout, hsent⟩

/-- Settles O56: the accepted execute is sent, and then each TICK counts down what is left of it. -/
theorem attemptCount : Obligations.AttemptCount := by
  intro s h r cfg hl hu hd hv hidle
  obtain ⟨htable, -, hroom⟩ := (State.legal_iff s).mp hl
  have hcalm : s.Calm := ⟨htable, hroom, hu, hd, fun j hj _ => hidle _ (State.ctx_mem hj)⟩
  obtain ⟨t, tid, f, hstep, ht, hout, hsent⟩ := exec_evExecute_calm (h := h) hcalm hl hv hidle
  have htimeout : 0 < cfg.timeoutMs.toNat := ((validate_iff r cfg).mp hv).1
  obtain ⟨outs, u, hrun, hends⟩ :=
    ht.run_ticks (h := h) (by rw [hsent]; exact Ctx.unanswered_sent tid rfl htimeout)
  rw [hsent, Ctx.ticksLeft_accepted] at hrun
  rw [hsent, Ctx.framesLeft_accepted] at hends
  have hall := hends.cons (l := t.out) (by simp [hout, Output.isTxFrame])
  exact ⟨_, u, runInstrs_cons hstep hrun, hall.last, hall.count.trans (by rw [hout]; rfl), hall.frames⟩

end Sys2Proof.Machine
end

section
/-! SUPPORT. What one turn makes of a context's execute, said once for every procedure of the engine: it is sent again,
it is retried, it ends with its RESULT, or a drain ends (45_engine R261 to R264; 60_exceptions R310 to R313). -/

namespace Sys2Proof.Machine

/-! ### The RESULTs of an output list -/

/-- The RESULT that an output is, if it is one. -/
def Output.result? : Output → Option ExecResult
  | .txFrame _ => none
  | .reqOpen => none
  | .reqClose => none
  | .result r => some r
  | .note _ _ => none

/-- The RESULTs a step has emitted so far, in order (R109). -/
def State.results (s : State) : List ExecResult := s.out.filterMap Output.result?

theorem Output.result?_eq_some {o : Output} {r : ExecResult} : o.result? = some r ↔ o = .result r := by
  cases o <;> simp [Output.result?]

theorem Output.isResultOf_eq (h : Handle) (o : Output) : o.isResultOf h = o.result?.any (·.handle == h) := by
  cases o <;> rfl

theorem State.mem_results {s : State} {r : ExecResult} : r ∈ s.results ↔ .result r ∈ s.out := by
  simp [State.results, Output.result?_eq_some]

theorem State.countP_results (s : State) (h : Handle) :
    s.results.countP (·.handle == h) = s.out.countP (Output.isResultOf h) := by
  rw [State.results, List.countP_filterMap]
  refine List.countP_congr fun o _ => ?_
  rw [Output.isResultOf_eq]
  cases o.result? <;> simp

theorem State.results_append {s t : State} {l : List Output} (ho : t.out = s.out ++ l) :
    t.results = s.results ++ l.filterMap Output.result? := by
  rw [State.results, ho, List.filterMap_append, State.results]

theorem State.results_result {s t : State} {r : ExecResult} (ho : t.out = s.out ++ [.result r]) :
    t.results = s.results ++ [r] := State.results_append ho

theorem State.results_other {s t : State} {o : Output} (hr : o.result? = none) (ho : t.out = s.out ++ [o]) :
    t.results = s.results := by
  rw [State.results_append ho]
  simp [hr]

theorem State.results_congr {s t : State} (ho : t.out = s.out) : t.results = s.results :=
  congrArg (List.filterMap Output.result?) ho

theorem sendAttempt_results (i : Nat) (s : State) : (sendAttempt i s).results = s.results := by
  cases hl : s.link with
  | down => exact State.results_other (o := .reqOpen) rfl (by rw [sendAttempt_of_down i s hl]; rfl)
  | opening => exact State.results_congr (by rw [sendAttempt_of_opening i s hl]; rfl)
  | up =>
    have e := sendAttempt_of_up i s hl
    split at e
    · exact State.results_congr (by rw [e]; rfl)
    · exact State.results_other (o := .txFrame _) rfl (by rw [e, transmit_out]; rfl)

/-! ### The moves of one context -/

/-- The most phases limited by timeout_ms that an attempt goes through after this one: a resync is followed by at most
the loss of the session, a wait for the session by no resync, and a backoff by all three (R261, R273, R276). -/
def waitsLeft : Phase → Nat
  | .awaitingResponse => 0
  | .linkWait => 1
  | .resyncWait => 2
  | .idle => 3
  | .sending => 3
  | .decoding => 3
  | .timedOut => 3
  | .retryOrFail => 3
  | .exceptionReceived => 3
  | .backoff => 3
  | .draining => 3

/-- The context c' holds the execute of c at the given attempt, in a timed phase just entered (R261, R262). -/
structure Ctx.Restarted (c : Ctx) (attempt : Word32) (c' : Ctx) : Prop where
  handle : c'.handle = c.handle
  cfg : c'.cfg = c.cfg
  attempt : c'.attempt = attempt
  timer : c'.timer = 0
  active : isActive c'.phase = true
  timed : isTimed c'.phase = true
  backoff : c'.phase = .backoff → c.cfg.retryBackoffMs ≠ 0

/-- A RESULT that ends an accepted execute of the handle h; Busy and InvalidRequest only refuse one (R250, R313). -/
structure ExecResult.Ends (h : Handle) (r : ExecResult) : Prop where
  handle : r.handle = h
  accepted : r.status ≠ .busy ∧ r.status ≠ .invalidRequest

/-- What a turn of any event but EXECUTE and CANCEL makes of the context c, with the RESULTs it emits. Without the mark
`rewaits` an attempt that is sent again has fewer waits left than before. -/
inductive Ctx.Moves (rewaits : Bool) (c c' : Ctx) : List ExecResult → Prop where
  | resends : isActive c.phase = true → c.Restarted c.attempt c' →
      (rewaits = true ∨ waitsLeft c'.phase < waitsLeft c.phase) → c.Moves rewaits c' []
  | retries : isActive c.phase = true → c.hasRetry = true → c.Restarted (c.attempt + 1) c' → c.Moves rewaits c' []
  | ends (r : ExecResult) : isActive c.phase = true → r.Ends c.handle → c'.phase = .idle → c.Moves rewaits c' [r]
  | frees : c.phase = .draining → c'.phase = .idle → c.Moves rewaits c' []

/-- From s to t only context i's execute moved. -/
structure Moved (rewaits : Bool) (i : Nat) (s t : State) : Prop extends Turn i s t where
  moves : ∃ rs, (s.ctx i).Moves rewaits (t.ctx i) rs ∧ t.results = s.results ++ rs

/-- A context that the table does not have reads as one at reset, which is Idle. -/
theorem State.lt_of_not_idle {s : State} {i : Nat} (h : (s.ctx i).phase ≠ .idle) : i < s.ctxs.length := by
  by_contra hi
  have hr : s.ctx i = Ctx.reset := List.getD_eq_default _ _ (Nat.le_of_not_lt hi)
  exact h (by rw [hr]; rfl)

theorem State.lt_of_active {s : State} {i : Nat} (h : isActive (s.ctx i).phase = true) : i < s.ctxs.length :=
  State.lt_of_not_idle fun e => by rw [e] at h; cases h

section
variable {rewaits : Bool} {i : Nat} {s t u : State}

/-- A turn that begins with a change of neither its context nor the RESULTs. -/
theorem Moved.after (h : Moved rewaits i u t) (hu : Turn i s u) (hc : u.ctx i = s.ctx i := by rfl)
    (ho : u.out = s.out := by rfl) : Moved rewaits i s t := by
  refine ⟨hu.trans h.toTurn, ?_⟩
  rw [← hc, ← State.results_congr ho]
  exact h.moves

/-! ### `sending!` (R261) -/

/-- The most phases limited by timeout_ms that an attempt goes through after the one it is sent to from here. -/
def State.waitsAhead (s : State) : Nat := if s.link = .up then (if s.rxDiscard = true then 2 else 0) else 1

theorem State.waitsAhead_le_two (s : State) : s.waitsAhead ≤ 2 := by
  unfold State.waitsAhead
  split_ifs <;> decide

theorem State.waitsAhead_le_one (hd : s.link = .up → s.rxDiscard = false) : s.waitsAhead ≤ 1 := by
  unfold State.waitsAhead
  split_ifs with hl hr
  · exact absurd ((hd hl).symm.trans hr) nofun
  · decide
  · decide

theorem State.waitsAhead_eq_zero (hl : s.link = .up) (hd : s.rxDiscard = false) : s.waitsAhead = 0 := by
  simp [State.waitsAhead, hl, hd]

theorem sendAttempt_restarts (hi : i < s.ctxs.length) :
    (s.ctx i).Restarted (s.ctx i).attempt ((sendAttempt i s).ctx i) ∧
      waitsLeft ((sendAttempt i s).ctx i).phase ≤ s.waitsAhead := by
  by_cases hl : s.link = .up
  · by_cases hd : s.kind = .rtu ∧ s.rxDiscard = true
    · rw [sendAttempt_resync_ctx hi hl hd.1 hd.2]
      exact ⟨⟨rfl, rfl, rfl, rfl, rfl, rfl, nofun⟩, by simp [State.waitsAhead, hl, hd.2, waitsLeft]⟩
    · obtain ⟨tid, hsent, -⟩ := sendAttempt_transmits hi hl fun hk => by simpa [hk] using hd
      rw [hsent]
      exact ⟨⟨rfl, rfl, rfl, rfl, rfl, rfl, nofun⟩, Nat.zero_le _⟩
  · rw [(sendAttempt_not_up hi hl).1]
    exact ⟨⟨rfl, rfl, rfl, rfl, rfl, rfl, nofun⟩, by simp [State.waitsAhead, hl, waitsLeft]⟩

theorem moved_sendAttempt (ha : isActive (s.ctx i).phase = true)
    (hw : rewaits = true ∨ s.waitsAhead < waitsLeft (s.ctx i).phase) : Moved rewaits i s (sendAttempt i s) := by
  obtain ⟨hr, hle⟩ := sendAttempt_restarts (State.lt_of_active ha)
  exact ⟨turn_sendAttempt i s, [], .resends ha hr (hw.imp_right (Nat.lt_of_le_of_lt hle)),
    by rw [sendAttempt_results, List.append_nil]⟩

/-! ### The RESULT that ends an execute (R263, R264) -/

/-- A RESULT of the execute that c held, after which the context is Idle. -/
theorem moves_ends {c : Ctx} {r : ExecResult} {f : Ctx → Ctx} (hi : i < s.ctxs.length) (ha : isActive c.phase = true)
    (he : r.Ends c.handle) (hf : ∀ d, (f d).phase = .idle) :
    ∃ rs, c.Moves rewaits (((s.emit (.result r)).modCtx i f).ctx i) rs ∧
      ((s.emit (.result r)).modCtx i f).results = s.results ++ rs := by
  rw [State.ctx_modCtx_same (s.emit _) i f hi]
  exact ⟨[r], .ends r ha he (hf _), State.results_result rfl⟩

theorem moved_completeGood (body : Body) (ha : isActive (s.ctx i).phase = true) :
    Moved rewaits i s (completeGood i body s) := by
  have hi := State.lt_of_active ha
  refine ⟨turn_completeGood i body s, ?_⟩
  rw [completeGood_eq i body s hi]
  exact moves_ends hi ha ⟨rfl, by constructor <;> exact nofun⟩ fun _ => rfl

theorem moved_completeExc (code : Byte) (ha : isActive (s.ctx i).phase = true) :
    Moved rewaits i s (completeExc i code s) := by
  have hi := State.lt_of_active ha
  refine ⟨turn_completeExc i code s, ?_⟩
  rw [completeExc_eq i code s hi]
  exact moves_ends hi ha ⟨rfl, by constructor <;> exact nofun⟩ fun _ => rfl

/-! ### The end of a drain (R213, R277) -/

theorem moved_release (hp : (s.ctx i).phase = .draining) : Moved rewaits i s (release i s) := by
  have hi := State.lt_of_not_idle (s := s) (i := i) (by rw [hp]; exact nofun)
  refine ⟨turn_release i s, [], .frees hp ?_, (List.append_nil _).symm⟩
  rw [release_eq, State.ctx_modCtx_same s i _ hi]
  rfl

/-! ### `attempt_fail!` (R262, R310) -/

/-- The context c' holds the execute of c at the same attempt. -/
structure Ctx.SameExecute (c c' : Ctx) : Prop where
  handle : c'.handle = c.handle
  cfg : c'.cfg = c.cfg
  attempt : c'.attempt = c.attempt

/-- A retryable failure retries the execute that c held, or ends it; its status is none that refuses an execute. -/
theorem attemptFail_moves {err : Status} {c : Ctx} (he : retryable err = true) (hi : i < s.ctxs.length)
    (ha : isActive c.phase = true) (hc : c.SameExecute (s.ctx i)) :
    ∃ rs, c.Moves rewaits ((attemptFail i err s).ctx i) rs ∧ (attemptFail i err s).results = s.results ++ rs := by
  obtain ⟨hhandle, hcfg, hattempt⟩ := hc
  by_cases hr : (s.ctx i).attempt < (s.ctx i).cfg.maxRetries
  · have hretry : c.hasRetry = true := Ctx.hasRetry_iff.mpr (by rwa [hattempt, hcfg] at hr)
    have hctx : (s.modCtx i (retriedCtx err)).ctx i = retriedCtx err (s.ctx i) := State.ctx_modCtx_same s i _ hi
    by_cases hb : (s.ctx i).cfg.retryBackoffMs = 0
    · obtain ⟨h, -⟩ := sendAttempt_restarts (s := s.modCtx i (retriedCtx err)) (i := i) (by simpa using hi)
      rw [hctx] at h
      rw [attemptFail_resend i err s hi ⟨he, hr⟩ hb]
      exact ⟨[], .retries ha hretry ⟨h.handle.trans hhandle, h.cfg.trans hcfg,
        h.attempt.trans (congrArg (· + 1) hattempt), h.timer, h.active, h.timed, fun hp => absurd hb (h.backoff hp)⟩,
        (sendAttempt_results i _).trans (List.append_nil _).symm⟩
    · rw [attemptFail_backoff i err s hi ⟨he, hr⟩ hb, hctx]
      exact ⟨[],
        .retries ha hretry ⟨hhandle, hcfg, congrArg (· + 1) hattempt, rfl, rfl, rfl, fun _ => hcfg ▸ hb⟩,
        (List.append_nil _).symm⟩
  · rw [attemptFail_end i err s hi fun h => hr h.2]
    exact moves_ends hi ha ⟨hhandle, by constructor <;> rintro rfl <;> cases he⟩ fun _ => rfl

theorem moved_attemptFail {err : Status} (he : retryable err = true) (ha : isActive (s.ctx i).phase = true) :
    Moved rewaits i s (attemptFail i err s) :=
  ⟨turn_attemptFail i err s, attemptFail_moves he (State.lt_of_active ha) ha ⟨rfl, rfl, rfl⟩⟩

end

end Sys2Proof.Machine
end

section
/-! SUPPORT. What a step does to the executes, event by event: a course of their moves, an EXECUTE refused or accepted,
a CANCEL, or the turns of a TICK (43_reassembly; 45_engine). -/

namespace Sys2Proof.Machine

/-! ### Courses of moves -/

/-- From s to t executes only move, one after another. -/
inductive Course (rewaits : Bool) : State → State → Prop where
  | silent {s t : State} : t.ctxs = s.ctxs → t.out = s.out → Course rewaits s t
  | emits {s : State} (o : Output) : o.result? = none → Course rewaits s (s.emit o)
  | moved {s t : State} {i : Nat} : Moved rewaits i s t → Course rewaits s t
  | trans {s t u : State} : Course rewaits s t → Course rewaits t u → Course rewaits s u

section
variable {rewaits : Bool} {s t u : State}

theorem Course.refl (s : State) : Course rewaits s s := .silent rfl rfl

/-- A course from a state that differs in neither the table nor the outputs. -/
theorem Course.after (h : Course rewaits u t) (hc : u.ctxs = s.ctxs := by rfl) (ho : u.out = s.out := by rfl) :
    Course rewaits s t :=
  .trans (.silent hc ho) h

/-- A loop whose turns are courses, from a state with a property that each turn keeps. -/
theorem course_forCtx {f : Nat → State → State} (P : State → Prop) (h0 : P s)
    (hf : ∀ i t, P t → P (f i t) ∧ Course rewaits t (f i t)) : Course rewaits s (s.forCtx f) :=
  (State.forCtx_induct (fun t => P t ∧ Course rewaits s t) f s ⟨h0, .refl s⟩ fun i t _ ht =>
    ⟨(hf i t ht.1).1, ht.2.trans (hf i t ht.1).2⟩).2

/-- What holds at the start of a course and is kept by each of its parts holds at its end. -/
theorem Course.induct {P : State → Prop} (h : Course rewaits s t)
    (hsilent : ∀ {u v : State}, v.ctxs = u.ctxs → v.results = u.results → P u → P v)
    (hmoved : ∀ {i : Nat} {u v : State}, Moved rewaits i u v → P u → P v) (hs : P s) : P t := by
  induction h with
  | silent hc ho => exact hsilent hc (State.results_congr ho) hs
  | @emits u o hr => exact hsilent (u := u) (v := u.emit o) rfl (State.results_other hr rfl) hs
  | moved h => exact hmoved h hs
  | trans _ _ ihs iht => exact iht (ihs hs)

/-! ### The session (R275, R276) -/

theorem course_linkUpCtx {i : Nat} (hw : rewaits = true ∨ s.link = .up ∧ s.rxDiscard = false) :
    Course rewaits s (linkUpCtx i s) := by
  by_cases hp : (s.ctx i).phase = .linkWait
  · rw [linkUpCtx_of_waiting hp]
    refine .moved (moved_sendAttempt (by rw [hp]; rfl) (hw.imp_right fun ⟨hl, hd⟩ => ?_))
    rw [State.waitsAhead_eq_zero hl hd, hp]
    decide
  · rw [linkUpCtx_of_not_waiting hp]
    exact .refl s

/-- LINK_UP: on a session that was not open no resync runs, so that every attempt that waited is sent. -/
theorem course_onLinkUp (hw : rewaits = true ∨ (s.link ≠ .up → s.rxDiscard = false)) :
    Course rewaits s (onLinkUp s) := by
  unfold onLinkUp
  split
  · exact .refl s
  · rename_i hl
    refine .after (u := s.setLink .up) (course_forCtx (fun t => rewaits = true ∨ t.link = .up ∧ t.rxDiscard = false)
      (hw.imp_right fun hd => ⟨rfl, hd hl⟩) fun i t ht => ⟨ht.imp_right fun ⟨hl, hd⟩ => ?_, course_linkUpCtx ht⟩)
    exact ⟨(kept_linkUpCtx i t).up.mpr hl, (lineKept_linkUpCtx i t).rxDiscard.trans hd⟩

theorem course_linkDownCtx {i : Nat} (hl : s.link ≠ .up) : Course rewaits s (linkDownCtx i s) := by
  unfold linkDownCtx
  split
  · rename_i hp
    exact .moved (moved_attemptFail rfl (by rw [hp]; rfl))
  · rename_i hp
    exact .moved (moved_attemptFail rfl (by rw [hp]; rfl))
  · rename_i hp
    refine .moved (moved_sendAttempt (by rw [hp]; rfl) (.inr ?_))
    rw [hp]
    exact Nat.lt_succ_of_le (State.waitsAhead_le_one fun h => absurd h hl)
  · rename_i hp
    exact .moved (moved_release hp)
  all_goals exact .refl s

/-- LINK_DOWN: an attempt that waited for a resync waits for the session. -/
theorem course_onLinkDown (s : State) : Course rewaits s (onLinkDown s) := by
  unfold onLinkDown
  split
  · exact .refl s
  · exact .after (u := s.linkLost) (course_forCtx (fun t => t.link ≠ .up) nofun fun i t ht =>
      ⟨fun h => ht ((kept_linkDownCtx i t).up.mp h), course_linkDownCtx ht⟩)

/-! ### TCP (R206 to R208, R220) -/

theorem course_tcpAbortCtx (bad : Tid) (i : Nat) (s : State) : Course rewaits s (tcpAbortCtx bad i s) := by
  unfold tcpAbortCtx
  split
  · rename_i hp
    split <;> exact .moved (moved_attemptFail rfl (by rw [hp]; rfl))
  · exact .refl s

theorem course_tcpAbort (bad : Tid) (s : State) : Course rewaits s (tcpAbort bad s) :=
  .trans (.emits .reqClose rfl) <| .after (u := s.closed.bufClear) <|
    course_forCtx (fun _ => True) trivial fun i t _ => ⟨trivial, course_tcpAbortCtx bad i t⟩

theorem course_tcpDeliver (f : List Byte) (s : State) : Course rewaits s (tcpDeliver f s) := by
  unfold tcpDeliver
  split
  · exact .emits _ rfl
  · rename_i i hi
    obtain ⟨-, hawait, -⟩ := (State.lookup_some s _ i).mp hi
    simp only [Bool.and_eq_true, beq_iff_eq] at hawait
    have ha : isActive (s.ctx i).phase = true := by rw [hawait.1.1]; rfl
    split
    · exact course_tcpAbort _ s
    · exact .moved (moved_completeGood _ ha)
    · exact .moved (moved_completeExc _ ha)

theorem course_tcpRxByte (b : Byte) (s : State) : Course rewaits s (tcpRxByte b s) := by
  refine .after (u := s.bufAppend b) ?_
  unfold tcpRxByte tcpCheck
  split
  · exact course_tcpAbort _ _
  · split
    · exact .after (course_tcpDeliver _ (s.bufAppend b).bufClear)
    · exact .refl _

/-! ### RTU (R210 to R215, R221) -/

theorem course_rtuErr {err : Status} (he : retryable err = true) (s : State) : Course rewaits s (rtuErr err s) := by
  unfold rtuErr
  extract_lets u
  refine .after (u := u) ?_
  split
  · rename_i hp
    exact .moved (moved_attemptFail he (by rw [hp]; rfl))
  · rename_i hp
    exact .moved (moved_release hp)
  all_goals exact .refl u

theorem course_rtuAnswer (f : List Byte) (ha : isActive (s.ctx 0).phase = true) : Course rewaits s (rtuAnswer f s) := by
  unfold rtuAnswer
  split
  · exact .after (u := s.startDiscard) (.moved (moved_attemptFail rfl ha))
  · exact .moved (moved_completeGood _ ha)
  · exact .moved (moved_completeExc _ ha)

theorem course_rtuFrame (f : List Byte) (s : State) : Course rewaits s (rtuFrame f s) := by
  have hstray : Course rewaits s (rtuStray s.bufClear) := .after (.emits _ rfl)
  unfold rtuFrame
  extract_lets u
  split
  · rename_i hp
    exact .after (u := u) (course_rtuAnswer f (by rw [hp]; rfl))
  · rename_i hp
    exact hstray.trans (.moved (moved_release hp))
  all_goals exact hstray

theorem course_rtuChecked (f : List Byte) (s : State) : Course rewaits s (rtuChecked f s) := by
  unfold rtuChecked
  split
  · exact course_rtuFrame f s
  · exact course_rtuErr rfl s

theorem course_rtuRxByte (b : Byte) (s : State) : Course rewaits s (rtuRxByte b s) := by
  unfold rtuRxByte rtuCheck
  extract_lets u
  refine .after (u := u) ?_
  split
  · exact .refl u
  · split
    · exact course_rtuErr rfl u
    · refine .after (u := u.bufAppend b) ?_
      split
      · split
        · exact course_rtuChecked _ _
        · exact .refl _
      all_goals exact .refl _

theorem course_silenceEnd (s : State) : Course rewaits s (silenceEnd s) := by
  unfold silenceEnd
  split
  · split
    · exact course_rtuErr rfl s
    · exact course_rtuChecked _ s
  all_goals exact course_rtuErr rfl s

/-- A silence that ends a resync sends the attempt that waited for it (R214). -/
theorem course_rtuIdle (s : State) : Course rewaits s (rtuIdle s) := by
  unfold rtuIdle
  split
  · extract_lets u
    refine .after (u := u) ?_
    split
    · rename_i hp
      refine .moved (moved_sendAttempt (by rw [hp]; rfl) (.inr ?_))
      rw [hp]
      exact Nat.lt_succ_of_le (State.waitsAhead_le_one fun _ => rfl)
    · exact .refl u
  · extract_lets u
    refine .after (u := u) ?_
    split
    · exact course_silenceEnd u
    · exact .refl u

theorem course_onRxByte (b : Byte) (s : State) : Course rewaits s (onRxByte b s) := by
  rcases onRxByte_cases b s with e | ⟨-, e⟩ | ⟨-, -, e⟩
  · rw [e]; exact .refl s
  · rw [e]; exact course_tcpRxByte b s
  · rw [e]; exact course_rtuRxByte b s

theorem course_onRxIdle (s : State) : Course rewaits s (onRxIdle s) := by
  rcases onRxIdle_cases s with e | ⟨-, -, e⟩
  · rw [e]; exact .refl s
  · rw [e]; exact course_rtuIdle s

end

/-! ### CANCEL (R266, R267) -/

/-- CANCEL ends the execute of context i, which becomes Idle, or drains on within the deadline of the response it
awaited. -/
structure Cancels (h : Handle) (i : Nat) (s t : State) : Prop extends Turn i s t where
  active : isActive (s.ctx i).phase = true
  handle : (s.ctx i).handle = h
  results : t.results = s.results ++ [⟨h, .cancelled, 0, none, none⟩]
  ctx : (t.ctx i).phase = .idle ∨ (s.ctx i).phase = .awaitingResponse ∧ (t.ctx i).phase = .draining ∧
    (t.ctx i).cfg = (s.ctx i).cfg ∧ (t.ctx i).timer = (s.ctx i).timer

theorem cancels_cancelCtx {h : Handle} {i : Nat} {s : State} (ha : isActive (s.ctx i).phase = true)
    (hh : (s.ctx i).handle = h) : Cancels h i s (cancelCtx h i s) := by
  have hi := State.lt_of_active ha
  unfold cancelCtx
  rw [cancelTxn_eq]
  extract_lets u
  have hu : Turn i s u := (turn_emit i _ s).trans (turn_modCtx i _ _)
  have hlen : i < u.ctxs.length := hu.length.symm ▸ hi
  have hc : u.ctx i = { s.ctx i with txn := if (s.ctx i).txn = .pending then .none else (s.ctx i).txn } :=
    State.ctx_modCtx_same (s.emit _) i _ hi
  split
  · rename_i hd
    refine ⟨hu.trans (turn_modCtx i _ u), ha, hh, State.results_result rfl, .inr ?_⟩
    rw [State.ctx_modCtx_same u i _ hlen, hc]
    exact ⟨by simpa [hc] using hd.2, rfl, rfl, rfl⟩
  · refine ⟨hu.trans (turn_release i u), ha, hh, State.results_result rfl, .inl ?_⟩
    rw [release_eq, State.ctx_modCtx_same u i _ hlen]
    rfl

theorem onCancel_cancels (h : Handle) (s : State) : onCancel h s = s ∨ ∃ i, Cancels h i s (onCancel h s) := by
  unfold onCancel
  split
  · exact .inl rfl
  · rename_i i hi
    obtain ⟨-, hheld, -⟩ := (State.findActive_some s h i).mp hi
    simp only [Bool.and_eq_true, beq_iff_eq] at hheld
    exact .inr ⟨i, cancels_cancelCtx hheld.1 hheld.2⟩

/-! ### TICK (R270) -/

/-- The deadline of a timed phase is a move (R271 to R274, R277). -/
theorem moved_deadlineOf {rewaits : Bool} {i : Nat} {s : State} (ht : isTimed (s.ctx i).phase = true) :
    Moved rewaits i s (deadlineOf (s.ctx i).phase i s) := by
  cases hp : (s.ctx i).phase with
  | awaitingResponse =>
    have ha : isActive (s.ctx i).phase = true := by rw [hp]; rfl
    have hi := State.lt_of_active ha
    have hc : (s.modCtx i expiredCtx).ctx i = expiredCtx (s.ctx i) := State.ctx_modCtx_same s i _ hi
    show Moved rewaits i s (deadlineAwait i s)
    rw [deadlineAwait_eq]
    exact ⟨(turn_modCtx i _ s).trans (turn_attemptFail i _ _),
      attemptFail_moves (s := s.modCtx i expiredCtx) rfl (by simpa using hi) ha (by rw [hc]; exact ⟨rfl, rfl, rfl⟩)⟩
  | backoff =>
    refine moved_sendAttempt (by rw [hp]; rfl) (.inr ?_)
    rw [hp]
    exact Nat.lt_succ_of_le s.waitsAhead_le_two
  | resyncWait =>
    have hu : Turn i s s.endDiscard.bufClear := (turn_endDiscard i s).trans (turn_bufClear i _)
    refine Moved.after (u := s.endDiscard.bufClear) (moved_sendAttempt ?_ (.inr ?_)) hu
    · show isActive (s.ctx i).phase = true
      rw [hp]; rfl
    · show _ < waitsLeft (s.ctx i).phase
      rw [hp]
      exact Nat.lt_succ_of_le (State.waitsAhead_le_one fun _ => rfl)
  | linkWait => exact moved_attemptFail rfl (by rw [hp]; rfl)
  | draining => exact moved_release hp
  | _ => rw [hp] at ht; cases ht

/-- One context's turn in TICK: its timer advances, and at the limit its execute moves. -/
theorem tickCtx_moves {i : Nat} {s : State} (hi : i < s.ctxs.length) :
    (s.ctx i).dueOnTick = false ∧ tickCtx i s = s.modCtx i agedCtx ∨
      (s.ctx i).dueOnTick = true ∧ Moved false i (s.modCtx i agedCtx) (tickCtx i s) := by
  cases hd : (s.ctx i).dueOnTick with
  | false => exact .inl ⟨rfl, tickCtx_of_not_due hi hd⟩
  | true =>
    have ht := Ctx.timed_of_due hd
    have hphase : ((s.modCtx i agedCtx).ctx i).phase = (s.ctx i).phase := by rw [State.ctx_aged hi ht]; rfl
    refine .inr ⟨rfl, ?_⟩
    rw [tickCtx_of_due hi hd, ← hphase]
    exact moved_deadlineOf (by rw [hphase]; exact ht)

/-! ### A step -/

/-- What the step of an instruction does to the executes. -/
inductive StepMoves (rewaits : Bool) (s t : State) : Instr → Prop where
  | course (i : Instr) : (∀ h r cfg, i ≠ .evExecute h r cfg) → i ≠ .evTick → Course rewaits s.begin t →
      StepMoves rewaits s t i
  | refuses (h : Handle) (r : Req) (cfg : ExecCfg) (st : Status) : t = s.begin.emit (plainResult h st 0) →
      StepMoves rewaits s t (.evExecute h r cfg)
  | accepts (h : Handle) (r : Req) (cfg : ExecCfg) (i : Nat) : i < s.ctxs.length → (s.ctx i).phase = .idle →
      validate r cfg = true → Moved rewaits i (acceptExecute i h r cfg s.begin) t →
      StepMoves rewaits s t (.evExecute h r cfg)
  | cancels (h : Handle) (i : Nat) : Cancels h i s.begin t → StepMoves rewaits s t (.evCancel h)
  | tick : t = onTick s.begin → StepMoves rewaits s t .evTick

theorem onExecute_moves {rewaits : Bool} (h : Handle) (r : Req) (cfg : ExecCfg) (s : State) :
    StepMoves rewaits s (onExecute h r cfg s.begin) (.evExecute h r cfg) := by
  rcases onExecute_accepts h r cfg s.begin with ⟨st, e⟩ | ⟨i, hv, -, hidle, e⟩
  · exact .refuses h r cfg st e
  · obtain ⟨hi, hp, -⟩ := (State.findIdle_some s.begin i).mp hidle
    refine .accepts h r cfg i hi (beq_iff_eq.mp hp) hv ?_
    rw [e]
    have hc : (acceptExecute i h r cfg s.begin).ctx i = acceptedCtx (s.begin.ctx i) h r cfg .sending :=
      acceptExecute_ctx hi
    refine moved_sendAttempt (by rw [hc]; rfl) (.inr ?_)
    rw [hc]
    exact Nat.lt_succ_of_le (State.waitsAhead_le_two _)

/-- An instruction that is neither an EXECUTE nor a TICK. Unless the mark `rewaits` is set, a session that is not open
must run no resync, which holds under the invariants. -/
theorem Completes.moves {rewaits : Bool} {i : Instr} {s t : State} (hc : Completes s t i)
    (hx : ∀ h r cfg, i ≠ .evExecute h r cfg) (ht : i ≠ .evTick)
    (hw : rewaits = true ∨ (s.link ≠ .up → s.rxDiscard = false)) : StepMoves rewaits s t i := by
  cases hc with
  | codec i v e => exact .course i hx ht (by rw [e]; exact .silent rfl rfl)
  | crcInit e => exact .course _ hx ht (by rw [e]; exact .silent rfl rfl)
  | crcUpdate b e => exact .course _ hx ht (by rw [e]; exact .silent rfl rfl)
  | execute h r cfg _ _ => exact absurd rfl (hx h r cfg)
  | cancel h _ e =>
    rw [e]
    rcases onCancel_cancels h s.begin with hn | ⟨i, hi⟩
    · exact .course _ hx ht (by rw [hn]; exact .refl _)
    · exact .cancels h i hi
  | rxByte b _ _ e => exact .course _ hx ht (by rw [e]; exact course_onRxByte b _)
  | rxIdle _ e => exact .course _ hx ht (by rw [e]; exact course_onRxIdle _)
  | tick _ _ => exact absurd rfl ht
  | linkUp _ e => exact .course _ hx ht (by rw [e]; exact course_onLinkUp hw)
  | linkDown _ e => exact .course _ hx ht (by rw [e]; exact course_onLinkDown _)

theorem exec_moves {rewaits : Bool} {i : Instr} {s t : State} (e : exec i s = .next t)
    (hw : rewaits = true ∨ (s.link ≠ .up → s.rxDiscard = false)) : StepMoves rewaits s t i := by
  cases i with
  | evExecute h r cfg =>
    obtain ⟨-, ht⟩ := runEvent_next e
    rw [ht]
    exact onExecute_moves h r cfg s
  | evTick =>
    obtain ⟨-, ht⟩ := runEvent_next e
    exact .tick ht
  | _ => exact (exec_completes e).moves nofun nofun hw

end Sys2Proof.Machine
end

section
/-! SUPPORT. The balance of the RESULTs of a handle and the executes that hold it (60_exceptions R313, 30_encoding
R109). -/

namespace Sys2Proof.Machine

/-- 1 if the context holds an active execute of the handle h, else 0 (R251). -/
def Ctx.holds (h : Handle) (c : Ctx) : Nat := if isActive c.phase && c.handle == h then 1 else 0

/-- The RESULTs of the handle h emitted so far and the contexts active for it. -/
def State.balance (h : Handle) (s : State) : Nat := s.results.countP (·.handle == h) + s.activeCount h

theorem Ctx.holds_of_inactive {h : Handle} {c : Ctx} (hp : isActive c.phase = false) : c.holds h = 0 := by
  simp [Ctx.holds, hp]

theorem Ctx.holds_of_active {h : Handle} {c : Ctx} (hp : isActive c.phase = true) :
    c.holds h = if c.handle == h then 1 else 0 := by
  simp [Ctx.holds, hp]

section
variable {rewaits : Bool} {i : Nat} {s t : State} {h : Handle}

theorem Turn.ctxs_eq_set (k : Turn i s t) : t.ctxs = s.ctxs.set i (t.ctx i) := by
  refine List.ext_getElem (by simp [k.length]) fun j hj _ => ?_
  have hjs : j < s.ctxs.length := k.length ▸ hj
  have hctx : ∀ u : State, ∀ hu : j < u.ctxs.length, u.ctxs[j] = u.ctx j := fun u hu =>
    (State.ctx_eq_of_getElem? (List.getElem?_eq_getElem hu)).symm
  rw [List.getElem_set]
  split
  · rename_i e
    subst e
    exact hctx t hj
  · rename_i e
    rw [hctx t hj, hctx s hjs]
    exact k.others j (Ne.symm e)

/-- A turn changes the number of contexts active for a handle by its own context alone. -/
theorem Turn.activeCount (k : Turn i s t) (hi : i < s.ctxs.length) :
    t.activeCount h + (s.ctx i).holds h = s.activeCount h + (t.ctx i).holds h := by
  have hctx : s.ctxs[i] = s.ctx i := (State.ctx_eq_of_getElem? (List.getElem?_eq_getElem hi)).symm
  have hle := List.boole_getElem_le_countP (p := fun c => isActive c.phase && c.handle == h) hi
  have hset := List.countP_set (p := fun c => isActive c.phase && c.handle == h) (a := t.ctx i) hi
  rw [hctx] at hle hset
  unfold State.activeCount Ctx.holds
  rw [k.ctxs_eq_set, hset]
  omega

/-- A turn balances when its RESULTs make up for what its context holds no more. -/
theorem Turn.balance {rs : List ExecResult} (k : Turn i s t) (hi : i < s.ctxs.length)
    (hr : t.results = s.results ++ rs)
    (hb : rs.countP (·.handle == h) + (t.ctx i).holds h = (s.ctx i).holds h) : t.balance h = s.balance h := by
  have hcount := k.activeCount (h := h) hi
  rw [State.balance, State.balance, hr, List.countP_append]
  omega

theorem Ctx.Moves.balance {c c' : Ctx} {rs : List ExecResult} (k : c.Moves rewaits c' rs) :
    rs.countP (·.handle == h) + c'.holds h = c.holds h := by
  cases k with
  | resends ha hr _ => simp [Ctx.holds_of_active ha, Ctx.holds_of_active hr.active, hr.handle]
  | retries ha _ hr => simp [Ctx.holds_of_active ha, Ctx.holds_of_active hr.active, hr.handle]
  | ends r ha he hp =>
    rw [Ctx.holds_of_active ha, Ctx.holds_of_inactive (by rw [hp]; rfl), List.countP_singleton, he.handle]
    rfl
  | frees hp hp' => simp [Ctx.holds, hp, hp', isActive]

/-- The context of a move is one of the table. -/
theorem Moved.lt (k : Moved rewaits i s t) : i < s.ctxs.length := by
  obtain ⟨rs, hmoves, -⟩ := k.moves
  cases hmoves with
  | resends ha _ _ => exact State.lt_of_active ha
  | retries ha _ _ => exact State.lt_of_active ha
  | ends r ha _ _ => exact State.lt_of_active ha
  | frees hp _ => exact State.lt_of_not_idle (by rw [hp]; exact nofun)

theorem Moved.balance (k : Moved rewaits i s t) : t.balance h = s.balance h := by
  obtain ⟨rs, hmoves, hr⟩ := k.moves
  exact k.toTurn.balance k.lt hr hmoves.balance

theorem State.balance_congr (hc : t.ctxs = s.ctxs) (hr : t.results = s.results) : t.balance h = s.balance h := by
  rw [State.balance, State.balance, State.activeCount, State.activeCount, hc, hr]

theorem Course.balance (k : Course rewaits s t) : t.balance h = s.balance h :=
  k.induct (P := fun u => u.balance h = s.balance h) (fun hc hr => (State.balance_congr hc hr).trans)
    (fun hm => hm.balance.trans) rfl

theorem Cancels.balance {g : Handle} (k : Cancels g i s t) : t.balance h = s.balance h := by
  refine k.toTurn.balance (State.lt_of_active k.active) k.results ?_
  have hfree : isActive (t.ctx i).phase = false := by
    rcases k.ctx with hp | ⟨-, hp, -⟩ <;> rw [hp] <;> rfl
  rw [Ctx.holds_of_inactive hfree, Ctx.holds_of_active k.active, k.handle, List.countP_singleton]
  rfl

/-- A timer that advances leaves every execute as it is. -/
theorem balance_aged (hi : i < s.ctxs.length) : (s.modCtx i agedCtx).balance h = s.balance h := by
  refine (turn_modCtx i agedCtx s).balance hi (List.append_nil _).symm ?_
  rw [State.ctx_modCtx_same s i agedCtx hi, agedCtx]
  split
  · exact Nat.zero_add _
  · exact Nat.zero_add _

theorem onTick_balance (s : State) : (onTick s).balance h = s.balance h := by
  refine (State.forCtx_induct (fun t => t.ctxs.length = s.ctxs.length ∧ t.balance h = s.balance h) tickCtx s ⟨rfl, rfl⟩
    fun i t hi ⟨hlen, ht⟩ => ⟨(turn_tickCtx i t).length.trans hlen, Eq.trans ?_ ht⟩).2
  have hi : i < t.ctxs.length := hlen.symm ▸ hi
  rcases tickCtx_moves hi with ⟨-, e⟩ | ⟨-, hm⟩
  · rw [e]
    exact balance_aged hi
  · exact hm.balance.trans (balance_aged hi)

theorem emit_balance {r : ExecResult} :
    (s.emit (.result r)).balance h = s.balance h + if r.handle == h then 1 else 0 := by
  have hr : (s.emit (.result r)).results = s.results ++ [r] := State.results_result rfl
  have hc : (s.emit (.result r)).activeCount h = s.activeCount h := rfl
  rw [State.balance, State.balance, hr, hc, List.countP_append, List.countP_singleton]
  omega

theorem acceptExecute_balance {g : Handle} {r : Req} {cfg : ExecCfg} (hi : i < s.ctxs.length)
    (hp : (s.ctx i).phase = .idle) :
    (acceptExecute i g r cfg s).balance h = s.balance h + if g == h then 1 else 0 := by
  have hturn : Turn i s (acceptExecute i g r cfg s) := turn_modCtx i _ s
  have hcount := hturn.activeCount (h := h) hi
  rw [acceptExecute_ctx hi, Ctx.holds_of_inactive (c := s.ctx i) (by rw [hp]; rfl)] at hcount
  have hholds : (acceptedCtx (s.ctx i) g r cfg .sending).holds h = if g == h then 1 else 0 := rfl
  have hr : (acceptExecute i g r cfg s).results = s.results := rfl
  rw [State.balance, State.balance, hr]
  omega

end

/-- The executes of the handle h that an instruction brings: 1 for an EXECUTE of h. -/
def executesOf (h : Handle) : Instr → Nat
  | .evExecute g _ _ => if g == h then 1 else 0
  | _ => 0

theorem executesOf_execute (h : Handle) (r : Req) (cfg : ExecCfg) : executesOf h (.evExecute h r cfg) = 1 := by
  simp [executesOf]

theorem executesOf_of_ne {h : Handle} {i : Instr} (hi : ∀ r cfg, i ≠ .evExecute h r cfg) : executesOf h i = 0 := by
  cases i with
  | evExecute g r cfg =>
    refine if_neg fun e => ?_
    rw [beq_iff_eq.mp e] at hi
    exact hi r cfg rfl
  | _ => rfl

/-- The balance of a step. -/
theorem exec_balance {i : Instr} {s t : State} (h : Handle) (e : exec i s = .next t) :
    t.balance h = s.activeCount h + executesOf h i := by
  have hbegin : s.begin.balance h = s.activeCount h := Nat.zero_add _
  rw [← hbegin]
  cases exec_moves (rewaits := true) e (.inl rfl) with
  | course i hx ht k => rw [k.balance, executesOf_of_ne fun r cfg => hx h r cfg]; rfl
  | refuses g r cfg st ht => rw [ht]; exact emit_balance
  | accepts g r cfg k hk hp _ hm => rw [hm.balance]; exact acceptExecute_balance (s := s.begin) hk hp
  | cancels g k hc => exact hc.balance
  | tick ht => rw [ht]; exact onTick_balance s.begin

/-- Settles O54: every move balances, and an EXECUTE brings the one execute it is refused or accepted with. -/
theorem oneResultPerExecute : Obligations.OneResultPerExecute := by
  intro i s t h e
  have hstep := exec_balance h e
  rw [State.balance, State.countP_results] at hstep
  refine ⟨fun hi => ?_, fun r cfg hi => ?_⟩
  · rw [hstep, executesOf_of_ne hi, Nat.add_zero]
  · rw [hstep, hi, executesOf_execute]

end Sys2Proof.Machine
end

section
/-! SUPPORT. The deadlines and the retry counts, move by move (60_exceptions R316; 45_engine R262, R270). -/

namespace Sys2Proof.Machine

/-- An execute under way has a deadline to count to, and no more retries than its configuration allows (R140, R262). -/
structure Ctx.WithinLimits (c : Ctx) : Prop where
  timeout : isActive c.phase = true → 0 < c.cfg.timeoutMs.toNat
  attempt : isActive c.phase = true → c.attempt ≤ c.cfg.maxRetries

/-- No deadline of the context is overdue either (R316). -/
structure Ctx.Ahead (c : Ctx) : Prop extends c.WithinLimits where
  timer : isTimed c.phase = true → c.timer < c.limit

/-- Every context of the table, and the context at reset that the others read as. -/
def State.Ahead (s : State) : Prop := ∀ i, (s.ctx i).Ahead

theorem Ctx.ahead_of_idle {c : Ctx} (hp : c.phase = .idle) : c.Ahead :=
  ⟨⟨by simp [hp, isActive], by simp [hp, isActive]⟩, by simp [hp, isTimed]⟩

theorem Ctx.Restarted.limit_pos {c c' : Ctx} {attempt : Word32} (hr : c.Restarted attempt c')
    (ht : 0 < c.cfg.timeoutMs.toNat) : (0 : Word32) < c'.limit := by
  unfold Ctx.limit
  rw [hr.cfg]
  split
  · rename_i hp
    exact BitVec.lt_def.mpr (Nat.pos_of_ne_zero fun e => hr.backoff hp (BitVec.eq_of_toNat_eq e))
  · exact BitVec.lt_def.mpr ht

theorem Ctx.Restarted.ahead {c c' : Ctx} {attempt : Word32} (hr : c.Restarted attempt c')
    (ht : 0 < c.cfg.timeoutMs.toNat) (ha : attempt ≤ c.cfg.maxRetries) : c'.Ahead :=
  ⟨⟨fun _ => hr.cfg ▸ ht, fun _ => by rw [hr.cfg, hr.attempt]; exact ha⟩, fun _ => hr.timer ▸ hr.limit_pos ht⟩

theorem Ctx.attempt_succ_le {c : Ctx} (hr : c.hasRetry = true) : c.attempt + 1 ≤ c.cfg.maxRetries := by
  have hlt := Ctx.hasRetry_iff.mp hr
  bv_omega

/-- A move enters a timed phase anew, or frees the context. -/
theorem Ctx.Moves.ahead {rewaits : Bool} {c c' : Ctx} {rs : List ExecResult} (k : c.Moves rewaits c' rs)
    (hc : c.WithinLimits) : c'.Ahead := by
  cases k with
  | resends ha hr _ => exact hr.ahead (hc.timeout ha) (hc.attempt ha)
  | retries ha hretry hr => exact hr.ahead (hc.timeout ha) (Ctx.attempt_succ_le hretry)
  | ends r _ _ hp => exact Ctx.ahead_of_idle hp
  | frees _ hp => exact Ctx.ahead_of_idle hp

theorem Ctx.WithinLimits.aged {c : Ctx} (hc : c.WithinLimits) : (agedCtx c).WithinLimits := by
  unfold agedCtx
  split
  · exact ⟨hc.timeout, hc.attempt⟩
  · exact hc

/-- A timer below its limit by more than one TICK. -/
theorem Ctx.Ahead.aged {c : Ctx} (hc : c.Ahead) (hd : c.dueOnTick = false) : (agedCtx c).Ahead := by
  refine ⟨hc.toWithinLimits.aged, ?_⟩
  cases ht : isTimed c.phase with
  | false => rw [agedCtx_of_untimed ht]; exact hc.timer
  | true =>
    rw [agedCtx_of_timed ht]
    have hlimit : ¬ c.limit ≤ timerNext c.timer := fun h =>
      Bool.eq_false_iff.mp hd (Ctx.dueOnTick_iff.mpr ⟨ht, h⟩)
    exact fun _ => BitVec.not_le.mp hlimit

section
variable {rewaits : Bool} {i : Nat} {s t : State}

theorem State.Ahead.turn (hs : s.Ahead) (k : Turn i s t) (hi : (t.ctx i).Ahead) : t.Ahead := by
  intro j
  by_cases hj : j = i
  · rw [hj]; exact hi
  · rw [k.others j hj]; exact hs j

theorem State.Ahead.moved (hs : s.Ahead) (k : Moved rewaits i s t) : t.Ahead := by
  obtain ⟨rs, hmoves, -⟩ := k.moves
  exact hs.turn k.toTurn (hmoves.ahead (hs i).toWithinLimits)

theorem State.Ahead.course (hs : s.Ahead) (k : Course rewaits s t) : t.Ahead := by
  refine k.induct (P := State.Ahead) (fun {u v} hc _ hu i => ?_) (fun hm hu => hu.moved hm) hs
  unfold State.ctx
  rw [hc]
  exact hu i

/-- A context that drains counts on to the limit of the response it awaited (R266, R277). -/
theorem State.Ahead.cancels {h : Handle} (hs : s.Ahead) (k : Cancels h i s t) : t.Ahead := by
  refine hs.turn k.toTurn ?_
  rcases k.ctx with hp | ⟨hp, hp', hcfg, htimer⟩
  · exact Ctx.ahead_of_idle hp
  · refine ⟨⟨by simp [hp', isActive], by simp [hp', isActive]⟩, fun _ => ?_⟩
    have hlimit : (t.ctx i).limit = (s.ctx i).limit := by simp [Ctx.limit, hp, hp', hcfg]
    rw [htimer, hlimit]
    exact (hs i).timer (by rw [hp]; rfl)

/-- A context's turn in TICK: below its limit the timer advances, at the limit the execute moves. -/
theorem State.Ahead.tickCtx (hs : s.Ahead) (hi : i < s.ctxs.length) : (tickCtx i s).Ahead := by
  have hctx : (s.modCtx i agedCtx).ctx i = agedCtx (s.ctx i) := State.ctx_modCtx_same s i _ hi
  refine hs.turn (turn_tickCtx i s) ?_
  rcases tickCtx_moves hi with ⟨hd, e⟩ | ⟨-, hm⟩
  · rw [e, hctx]
    exact (hs i).aged hd
  · obtain ⟨rs, hmoves, -⟩ := hm.moves
    exact hmoves.ahead (hctx ▸ (hs i).toWithinLimits.aged)

theorem State.Ahead.onTick (hs : s.Ahead) : (onTick s).Ahead :=
  (State.forCtx_induct (fun t => t.ctxs.length = s.ctxs.length ∧ t.Ahead) Machine.tickCtx s ⟨rfl, hs⟩
    fun i t hi ⟨hlen, ht⟩ => ⟨(turn_tickCtx i t).length.trans hlen, ht.tickCtx (hlen.symm ▸ hi)⟩).2

theorem State.Ahead.acceptExecute {h : Handle} {r : Req} {cfg : ExecCfg} (hs : s.Ahead) (hi : i < s.ctxs.length)
    (hv : validate r cfg = true) : (acceptExecute i h r cfg s).Ahead := by
  refine hs.turn (turn_modCtx i _ s) ?_
  rw [acceptExecute_ctx hi]
  exact ⟨⟨fun _ => ((validate_iff r cfg).mp hv).1, fun _ => Nat.zero_le _⟩, nofun⟩

theorem State.Ahead.deadlines (hs : s.Ahead) : s.DeadlinesAhead := by
  intro c hc
  obtain ⟨i, -, rfl⟩ := State.exists_ctx_of_mem hc
  exact ⟨(hs i).timer, (hs i).attempt⟩

/-- Under the invariants every active context holds a validated request, whose timeout is not 0 (R140, R47). -/
theorem State.Inv.ahead (hs : s.Inv) (hd : s.DeadlinesAhead) : s.Ahead := by
  intro i
  by_cases hi : i < s.ctxs.length
  · have hvalid := (hs.invBut.own i hi (by simp)).latched.1
    obtain ⟨htimer, hattempt⟩ := hd _ (State.ctx_mem hi)
    exact ⟨⟨fun ha => ((validate_iff _ _).mp (hvalid ha)).1, hattempt⟩, htimer⟩
  · exact Ctx.ahead_of_idle (by by_contra hp; exact hi (State.lt_of_not_idle hp))

end

/-- Every instruction keeps the deadlines ahead. -/
theorem exec_deadlinesAhead {i : Instr} {s t : State} (hs : s.Inv) (hd : s.DeadlinesAhead) (e : exec i s = .next t) :
    t.DeadlinesAhead := by
  have hb : s.begin.Ahead := State.Inv.ahead (s := s.begin) hs hd
  refine State.Ahead.deadlines ?_
  cases exec_moves (rewaits := true) e (.inl rfl) with
  | course i _ _ k => exact hb.course k
  | refuses h r cfg st ht => rw [ht]; exact hb
  | accepts h r cfg k hk _ hv hm => exact (hb.acceptExecute hk hv).moved hm
  | cancels h k hc => exact hb.cancels hc
  | tick ht => rw [ht]; exact hb.onTick

/-- Settles O49: a step holds the state or runs an instruction, and every instruction keeps the deadlines ahead. -/
theorem deadlinesKept : Obligations.DeadlinesKept := by
  intro s t hs hd e
  rcases step_next e with ⟨-, rfl⟩ | ⟨w, rest, i, -, -, hx⟩
  · exact hd
  · exact exec_deadlinesAhead (s := { s with inbox := rest }) hs hd hx

end Sys2Proof.Machine
end

section
/-! SUPPORT. The failure entry `attempt_fail!` as one update of the block, branch by branch (60_exceptions R310;
45_engine R262). -/

namespace Sys2Proof.Machine

/-- The transaction that `attempt_fail!` destroys is None afterwards (R236, R310). -/
theorem retriedCtx_eq {c : Ctx} (err : Status) (hx : c.txn = .none ∨ c.txn = .pending) :
    retriedCtx err c =
      { c with lastErr := err, txn := .none, attempt := c.attempt + 1, phase := .backoff, timer := 0 } := by
  have hnone : (if c.txn = .pending then .none else c.txn) = Txn.none := by
    rcases hx with hx | hx <;> rw [hx] <;> rfl
  rw [retriedCtx, hnone]

theorem modCtx_retriedCtx {s : State} {i : Nat} (err : Status) (hi : i < s.ctxs.length)
    (hx : (s.ctx i).txn = .none ∨ (s.ctx i).txn = .pending) :
    s.modCtx i (retriedCtx err) = { s with
      ctxs := s.ctxs.set i { s.ctx i with
        lastErr := err, txn := .none, attempt := (s.ctx i).attempt + 1, phase := .backoff, timer := 0 } } := by
  rw [State.modCtx, State.modify_ctxs_eq_set hi, retriedCtx_eq err hx]

/-- Settles O57: the RESULT and the release, the backoff, or the retry sent from the backed-off context. -/
theorem failureEntry : Obligations.FailureEntry := by
  intro s i err hi hx
  refine ⟨fun hr => ?_, fun he hr hb => ?_, fun he hr hb => ?_⟩
  · rw [attemptFail_end i err s hi fun h => hr.elim (fun he => absurd (he.symm.trans h.1) nofun) fun hn => hn h.2]
    exact ⟨rfl, congrArg (fun cs => { s.block with ctxs := cs }) (State.modify_ctxs_eq_set hi (endedCtx err))⟩
  · rw [attemptFail_backoff i err s hi ⟨he, hr⟩ hb, modCtx_retriedCtx err hi hx]
    exact ⟨rfl, rfl⟩
  · rw [attemptFail_resend i err s hi ⟨he, hr⟩ hb, modCtx_retriedCtx err hi hx]

end Sys2Proof.Machine
end

section
/-! SUPPORT. What is left of an accepted execute, in TICKs: every move keeps within it, and each TICK takes one
(60_exceptions R313). -/

namespace Sys2Proof.Machine

/-! ### The TICKs an execute may still take -/

/-- The most TICKs until the RESULT of the execute a context holds: the rest of its phase, the waits of its attempt, and
three waits and a backoff for each retry left. -/
def Ctx.ticksAllowed (c : Ctx) : Nat :=
  (c.limit.toNat - c.timer.toNat) + waitsLeft c.phase * c.cfg.timeoutMs.toNat +
    c.retriesLeft * (3 * c.cfg.timeoutMs.toNat + c.cfg.retryBackoffMs.toNat)

theorem waitsLeft_le_three (p : Phase) : waitsLeft p ≤ 3 := by
  cases p <;> decide

section
variable {rewaits : Bool} {c c' : Ctx} {attempt : Word32} {rs : List ExecResult}

/-- A phase just entered has all its TICKs left. -/
theorem Ctx.Restarted.ticksAllowed (hr : c.Restarted attempt c') :
    c'.ticksAllowed = c'.limit.toNat + waitsLeft c'.phase * c.cfg.timeoutMs.toNat +
      c'.retriesLeft * (3 * c.cfg.timeoutMs.toNat + c.cfg.retryBackoffMs.toNat) := by
  rw [Ctx.ticksAllowed, hr.timer, hr.cfg]
  rfl

/-- A backoff is followed by three waits; every other phase an execute rests in is a wait itself. -/
theorem Ctx.Restarted.limit_cases (hr : c.Restarted attempt c') :
    c'.limit = c.cfg.retryBackoffMs ∧ waitsLeft c'.phase = 3 ∨
      c'.limit = c.cfg.timeoutMs ∧ waitsLeft c'.phase ≤ 2 := by
  have ha := hr.active
  have ht := hr.timed
  unfold Ctx.limit
  rw [hr.cfg]
  cases hp : c'.phase with
  | awaitingResponse => exact .inr ⟨rfl, by decide⟩
  | linkWait => exact .inr ⟨rfl, by decide⟩
  | resyncWait => exact .inr ⟨rfl, by decide⟩
  | backoff => exact .inl ⟨rfl, rfl⟩
  | draining => rw [hp] at ha; cases ha
  | _ => rw [hp] at ht; cases ht

/-- The attempt of a context that does not back off has at most its phase and the waits after it. -/
theorem Ctx.Restarted.ticksAllowed_waiting (hr : c.Restarted attempt c') (hw : waitsLeft c'.phase ≤ 2) :
    c'.ticksAllowed = (waitsLeft c'.phase + 1) * c.cfg.timeoutMs.toNat +
      c'.retriesLeft * (3 * c.cfg.timeoutMs.toNat + c.cfg.retryBackoffMs.toNat) := by
  have hlimit : c'.limit = c.cfg.timeoutMs := by
    rcases hr.limit_cases with ⟨-, hw'⟩ | ⟨hl, -⟩
    · omega
    · exact hl
  rw [hr.ticksAllowed, hlimit, Nat.succ_mul (waitsLeft c'.phase)]
  omega

/-- An attempt that is sent again gives up a wait for the phase it enters. -/
theorem Ctx.Restarted.ticksAllowed_resend (hr : c.Restarted c.attempt c')
    (hw : waitsLeft c'.phase < waitsLeft c.phase) : c'.ticksAllowed ≤ c.ticksAllowed := by
  have hleft : c'.retriesLeft = c.retriesLeft := by rw [Ctx.retriesLeft, Ctx.retriesLeft, hr.cfg, hr.attempt]
  have hmax := waitsLeft_le_three c.phase
  have hwaits : (waitsLeft c'.phase + 1) * c.cfg.timeoutMs.toNat ≤ waitsLeft c.phase * c.cfg.timeoutMs.toNat :=
    Nat.mul_le_mul_right _ hw
  rw [hr.ticksAllowed_waiting (by omega), hleft, Ctx.ticksAllowed]
  omega

/-- A retry takes its three waits and its backoff from what the retries left allow. -/
theorem Ctx.Restarted.ticksAllowed_retry (hr : c.Restarted (c.attempt + 1) c') (hretry : c.hasRetry = true) :
    c'.ticksAllowed ≤ c.ticksAllowed := by
  have hallowed : c'.ticksAllowed ≤
      (c'.retriesLeft + 1) * (3 * c.cfg.timeoutMs.toNat + c.cfg.retryBackoffMs.toNat) := by
    rw [Nat.succ_mul c'.retriesLeft]
    rcases hr.limit_cases with ⟨hl, hw⟩ | ⟨-, hw⟩
    · rw [hr.ticksAllowed, hl, hw]
      omega
    · have hwaits : (waitsLeft c'.phase + 1) * c.cfg.timeoutMs.toNat ≤ 3 * c.cfg.timeoutMs.toNat :=
        Nat.mul_le_mul_right _ (by omega)
      rw [hr.ticksAllowed_waiting hw]
      omega
  rw [← Ctx.retriesLeft_of_hasRetry hretry hr.cfg hr.attempt] at hallowed
  exact hallowed.trans (Nat.le_add_left _ _)

/-- A move of an active execute emits the RESULT that ends it, or keeps it within the TICKs it is allowed. -/
theorem Ctx.Moves.active_cases (k : c.Moves false c' rs) (ha : isActive c.phase = true) :
    (isActive c'.phase = true ∧ c'.handle = c.handle ∧ c'.ticksAllowed ≤ c.ticksAllowed) ∨
      ∃ r ∈ rs, r.Ends c.handle := by
  cases k with
  | resends _ hr hw => exact .inl ⟨hr.active, hr.handle, hr.ticksAllowed_resend (hw.resolve_left nofun)⟩
  | retries _ hretry hr => exact .inl ⟨hr.active, hr.handle, hr.ticksAllowed_retry hretry⟩
  | ends r _ he _ => exact .inr ⟨r, List.mem_singleton.mpr rfl, he⟩
  | frees hp _ => rw [hp] at ha; cases ha

/-- A TICK takes one of the TICKs that are left. -/
theorem Ctx.ticksAllowed_ticked (ht : c.timer < c.limit) : c.ticked.ticksAllowed + 1 = c.ticksAllowed := by
  have hlt := BitVec.lt_def.mp ht
  have hmax := c.limit.isLt
  have htimer : c.ticked.timer.toNat = c.timer.toNat + 1 := by
    rw [Ctx.ticked, timerNext_toNat]
    omega
  have hticked : c.ticked.ticksAllowed = (c.limit.toNat - c.ticked.timer.toNat) +
      waitsLeft c.phase * c.cfg.timeoutMs.toNat +
        c.retriesLeft * (3 * c.cfg.timeoutMs.toNat + c.cfg.retryBackoffMs.toNat) := rfl
  rw [hticked, htimer, Ctx.ticksAllowed]
  omega

theorem Ctx.ticksAllowed_pos (ht : c.timer < c.limit) : 0 < c.ticksAllowed := by
  have hticked := Ctx.ticksAllowed_ticked ht
  omega

end

/-! ### One execute, followed -/

/-- The execute of the handle h in context j has at most n TICKs left, or its RESULT was emitted in this step. -/
inductive State.Follows (h : Handle) (j n : Nat) (s : State) : Prop where
  | active : isActive (s.ctx j).phase = true → (s.ctx j).handle = h → (s.ctx j).ticksAllowed ≤ n → s.Follows h j n
  | ended (r : ExecResult) : r ∈ s.results → r.Ends h → s.Follows h j n

section
variable {rewaits : Bool} {i j n : Nat} {s t : State} {h : Handle}

/-- What leaves the context and the RESULTs so far as they are. -/
theorem State.Follows.kept (hs : s.Follows h j n) (hc : t.ctx j = s.ctx j) (hr : ∀ r ∈ s.results, r ∈ t.results) :
    t.Follows h j n := by
  cases hs with
  | active ha hh hn => exact .active (hc ▸ ha) (hc ▸ hh) (hc ▸ hn)
  | ended r hm he => exact .ended r (hr r hm) he

theorem Turn.results_mem (k : Turn i s t) : ∀ r ∈ s.results, r ∈ t.results := by
  obtain ⟨l, hl⟩ := k.outs
  intro r hr
  rw [State.results_append hl]
  exact List.mem_append_left _ hr

theorem State.Follows.turn_other (hs : s.Follows h j n) (k : Turn i s t) (hj : j ≠ i) : t.Follows h j n :=
  hs.kept (k.others j hj) k.results_mem

theorem State.Follows.moved (hs : s.Follows h j n) (k : Moved false i s t) : t.Follows h j n := by
  by_cases hj : j = i
  · subst hj
    obtain ⟨rs, hmoves, hr⟩ := k.moves
    cases hs with
    | active ha hh hn =>
      rcases hmoves.active_cases ha with ⟨ha', hh', hn'⟩ | ⟨r, hm, he⟩
      · exact .active ha' (hh'.trans hh) (hn'.trans hn)
      · exact .ended r (by rw [hr]; exact List.mem_append_right _ hm) (hh ▸ he)
    | ended r hm he => exact .ended r (k.results_mem r hm) he
  · exact hs.turn_other k.toTurn hj

theorem State.Follows.course (hs : s.Follows h j n) (k : Course false s t) : t.Follows h j n :=
  k.induct (P := State.Follows h j n)
    (fun hc hr hu => hu.kept (by unfold State.ctx; rw [hc]) fun _ hm => hr ▸ hm) (fun hm hu => hu.moved hm) hs

theorem State.Follows.cancels {g : Handle} (hs : s.Follows h j n) (k : Cancels g i s t) : t.Follows h j n := by
  by_cases hj : j = i
  · subst hj
    have hm : (⟨g, .cancelled, 0, none, none⟩ : ExecResult) ∈ t.results := by
      rw [k.results]
      exact List.mem_append_right _ (List.mem_singleton.mpr rfl)
    cases hs with
    | active _ hh _ => exact .ended _ hm ⟨k.handle.symm.trans hh, by constructor <;> exact nofun⟩
    | ended r hm he => exact .ended r (k.results_mem r hm) he
  · exact hs.turn_other k.toTurn hj

/-- The turn of the context in TICK: one TICK less is left. -/
theorem State.follows_tickCtx (ha : isActive (s.ctx j).phase = true) (hh : (s.ctx j).handle = h)
    (hn : (s.ctx j).ticksAllowed ≤ n + 1) (ht : isTimed (s.ctx j).phase = true)
    (hlt : (s.ctx j).timer < (s.ctx j).limit) : (tickCtx j s).Follows h j n := by
  have hi := State.lt_of_active ha
  have hticked := Ctx.ticksAllowed_ticked hlt
  have haged : (s.modCtx j agedCtx).Follows h j n := by
    have hctx := State.ctx_aged hi ht
    exact .active (by rw [hctx]; exact ha) (by rw [hctx]; exact hh) (by rw [hctx]; omega)
  rcases tickCtx_moves hi with ⟨-, e⟩ | ⟨-, hm⟩
  · rw [e]; exact haged
  · exact haged.moved hm

/-- TICK takes the context's turn once, and no other turn touches it. -/
theorem State.follows_onTick (ha : isActive (s.ctx j).phase = true) (hh : (s.ctx j).handle = h)
    (hn : (s.ctx j).ticksAllowed ≤ n + 1) (ht : isTimed (s.ctx j).phase = true)
    (hlt : (s.ctx j).timer < (s.ctx j).limit) : (onTick s).Follows h j n := by
  have hall := State.forCtx_index (fun k t => if j < k then t.Follows h j n else t.ctx j = s.ctx j) tickCtx s
    (if_neg (Nat.not_lt_zero j) ▸ rfl) fun i t hi hbefore => by
      rcases Nat.lt_trichotomy j i with hj | rfl | hj
      · rw [if_pos hj] at hbefore
        rw [if_pos (by omega)]
        exact hbefore.turn_other (turn_tickCtx i t) (by omega)
      · rw [if_neg (Nat.lt_irrefl j)] at hbefore
        rw [if_pos (Nat.lt_succ_self j)]
        exact State.follows_tickCtx (hbefore ▸ ha) (hbefore ▸ hh) (hbefore ▸ hn) (hbefore ▸ ht) (hbefore ▸ hlt)
      · rw [if_neg (by omega)] at hbefore
        rw [if_neg (by omega)]
        exact ((turn_tickCtx i t).others j (by omega)).trans hbefore
  rwa [if_pos (State.lt_of_active ha)] at hall

/-- A context that holds an execute between steps stands in a timed phase (R45). -/
theorem isTimed_of_resting {p : Phase} (hr : isResting p = true) (ha : isActive p = true) : isTimed p = true := by
  cases p with
  | idle => cases ha
  | sending => cases hr
  | decoding => cases hr
  | timedOut => cases hr
  | retryOrFail => cases hr
  | exceptionReceived => cases hr
  | _ => rfl

theorem State.Inv.timer_lt (hs : s.Inv) (hd : s.DeadlinesAhead) (ha : isActive (s.ctx j).phase = true) :
    isTimed (s.ctx j).phase = true ∧ (s.ctx j).timer < (s.ctx j).limit := by
  have hi := State.lt_of_active ha
  have ht := isTimed_of_resting (hs.invBut.own j hi (by simp)).resting ha
  exact ⟨ht, (hd _ (State.ctx_mem hi)).1 ht⟩

/-- One instruction, seen from an active execute. -/
theorem exec_follows {i : Instr} (hs : s.Inv) (hd : s.DeadlinesAhead) (e : exec i s = .next t)
    (ha : isActive (s.ctx j).phase = true) (hh : (s.ctx j).handle = h)
    (hn : (s.ctx j).ticksAllowed ≤ n + [i].count .evTick) : t.Follows h j n := by
  have hstart : i ≠ .evTick → s.begin.Follows h j n := fun hi => by
    rw [List.count_singleton, if_neg (by simpa using hi)] at hn
    exact .active ha hh hn
  cases exec_moves (rewaits := false) e (.inr hs.no_discard) with
  | course i _ hi k => exact (hstart hi).course k
  | refuses g r cfg st ht =>
    rw [ht]
    exact (hstart nofun).turn_other (i := j + 1) (turn_emit _ _ s.begin) (by omega)
  | accepts g r cfg k hk hp _ hm =>
    have hj : j ≠ k := by
      rintro rfl
      rw [hp] at ha
      cases ha
    exact ((hstart nofun).turn_other (turn_modCtx k _ s.begin) hj).moved hm
  | cancels g k hc => exact (hstart nofun).cancels hc
  | tick ht =>
    obtain ⟨htimed, hlt⟩ := hs.timer_lt hd ha
    rw [ht]
    exact State.follows_onTick (s := s.begin) ha hh hn htimed hlt

/-! ### Runs -/

/-- Under the invariants a run does not stop (R282). -/
theorem runInstrs_completes (is : List Instr) (hs : s.Inv) : ∃ outs t, runInstrs is s = some (outs, t) := by
  induction is generalizing s with
  | nil => exact ⟨[], s, rfl⟩
  | cons i is ih =>
    obtain ⟨u, e⟩ := everyInstructionCompletes i s hs
    obtain ⟨outs, t, hrun⟩ := ih (exec_inv hs e)
    exact ⟨_, t, runInstrs_cons e hrun⟩

/-- A run with as many TICKs as an execute has left emits the RESULT that ends it. -/
theorem runInstrs_ends (is : List Instr) (hs : s.Inv) (hd : s.DeadlinesAhead)
    (ha : isActive (s.ctx j).phase = true) (hh : (s.ctx j).handle = h)
    (hn : (s.ctx j).ticksAllowed ≤ is.count .evTick) :
    ∃ outs t, runInstrs is s = some (outs, t) ∧ ∃ r, .result r ∈ outs.flatten ∧ r.Ends h := by
  induction is generalizing s with
  | nil =>
    have hpos := Ctx.ticksAllowed_pos (hs.timer_lt hd ha).2
    rw [List.count_nil] at hn
    omega
  | cons i is ih =>
    obtain ⟨u, e⟩ := everyInstructionCompletes i s hs
    have hu := exec_inv hs e
    rw [← List.singleton_append, List.count_append, Nat.add_comm] at hn
    cases exec_follows hs hd e ha hh hn with
    | active ha hh hn =>
      obtain ⟨outs, t, hrun, r, hm, he⟩ := ih hu (exec_deadlinesAhead hs hd e) ha hh hn
      exact ⟨_, t, runInstrs_cons e hrun, r, by rw [List.flatten_cons]; exact List.mem_append_right _ hm, he⟩
    | ended r hm he =>
      obtain ⟨outs, t, hrun⟩ := runInstrs_completes is hu
      exact ⟨_, t, runInstrs_cons e hrun, r,
        by rw [List.flatten_cons]; exact List.mem_append_left _ (State.mem_results.mp hm), he⟩

/-- An accepted EXECUTE leaves its context with the TICKs that R313 allows. -/
theorem exec_evExecute_allows {r : Req} {cfg : ExecCfg} (hl : s.legal = true) (hv : validate r cfg = true)
    (hfree : ∀ c ∈ s.ctxs, c.phase ≠ .idle → c.phase ≠ .draining → c.handle ≠ h)
    (hidle : ∃ c ∈ s.ctxs, c.phase = .idle) :
    ∃ j t, exec (.evExecute h r cfg) s = .next t ∧ isActive (t.ctx j).phase = true ∧ (t.ctx j).handle = h ∧
      (t.ctx j).ticksAllowed ≤ (1 + cfg.maxRetries.toNat) * 3 * cfg.timeoutMs.toNat +
        cfg.maxRetries.toNat * cfg.retryBackoffMs.toNat := by
  obtain ⟨j, hj⟩ : ∃ j, s.findIdle = some j := by
    obtain ⟨c, hc, hp⟩ := hidle
    refine Option.ne_none_iff_exists'.mp fun hnone => ?_
    exact absurd hp (beq_eq_false_iff_ne.mp ((State.findIdle_none s).mp hnone c hc))
  obtain ⟨hi, hp, hlow⟩ := (State.findIdle_some s j).mp hj
  have hstep := exec_evExecute_accepted (h := h) hl hv hfree hi (beq_iff_eq.mp hp)
    fun k hk => beq_eq_false_iff_ne.mp (hlow k hk)
  have hlen : j < (acceptExecute j h r cfg s.begin).ctxs.length := (State.length_modCtx s.begin j _).symm ▸ hi
  obtain ⟨hr, hw⟩ := sendAttempt_restarts hlen
  have hwaits := hw.trans (State.waitsAhead_le_two _)
  rw [acceptExecute_ctx (s := s.begin) hi] at hr
  have hleft : ((sendAttempt j (acceptExecute j h r cfg s.begin)).ctx j).retriesLeft = cfg.maxRetries.toNat := by
    rw [Ctx.retriesLeft, hr.cfg, hr.attempt]
    exact Nat.sub_zero _
  refine ⟨j, _, hstep, hr.active, hr.handle, ?_⟩
  rw [hr.ticksAllowed_waiting hwaits, hleft]
  calc _ ≤ 3 * cfg.timeoutMs.toNat + cfg.maxRetries.toNat * (3 * cfg.timeoutMs.toNat + cfg.retryBackoffMs.toNat) :=
        Nat.add_le_add_right (Nat.mul_le_mul_right _ (Nat.succ_le_succ hwaits)) _
    _ = _ := by ring

end

/-- Settles O55: the accepted execute is followed through the run, whose TICKs use up all that it is allowed. -/
theorem everyExecuteEnds : Obligations.EveryExecuteEnds := by
  intro s h r cfg is hs hd hv hfree hidle hn
  obtain ⟨j, t, e, ha, hh, hallowed⟩ := exec_evExecute_allows (h := h) hs.legal hv hfree hidle
  obtain ⟨outs, u, hrun, x, hm, he⟩ :=
    runInstrs_ends is (exec_inv hs e) (exec_deadlinesAhead hs hd e) ha hh (hallowed.trans hn)
  refine ⟨_, u, runInstrs_cons e hrun, x, ?_, he.handle, he.accepted⟩
  rw [List.flatten_cons]
  exact List.mem_append_right _ hm

end Sys2Proof.Machine
end
